-- ==== Sys2Proof/Word.lean ====
section
/-! DEFINITION. The words of the Moclane 620: bytes, 16-bit exchange words and deck clock stamps (0.6.1, 0.6.5). -/

namespace Sys2Proof

/-- One byte of a frame, of a record or of the exchange area. -/
abbrev Byte := BitVec 8

/-- One exchange word or register: 16 bits (0.6.5). -/
abbrev Word := BitVec 16

/-- A deck clock value: a 32-bit count of milliseconds, modulo 2³² (0.6.2). -/
abbrev Stamp := BitVec 32

end Sys2Proof
end

