-- ==== Sys2Proof/Syntax.lean ====
section
/-! DEFINITION. The commands of the Moclane 620: one constructor of `Instr` for each row of spec/opcode_table.json.
A command is a host bus access, the intake of a posted order, an event on a deck line, the expiry of a timer, or a
change of nRESET. -/

namespace Sys2Proof

/-- The two deck lines (Chapter 2). -/
inductive LineId where
  | a
  | b
  deriving DecidableEq, Repr, Inhabited

/-- One character as the receiver samples it (R13): its eight data bits, its parity bit, and whether its stop bit
was present. -/
structure RxChar where
  data   : Byte
  parity : Bool
  stop   : Bool
  deriving DecidableEq, Repr, Inhabited

/-- The three news flags that the host can clear (R162). -/
inductive ClearableFlag where
  | orderDone
  | statusEdited
  | stateChanged
  deriving DecidableEq, Repr, Inhabited

/-- The two register positions whose writes are ignored (9.6). -/
inductive IgnoredPosition where
  | ident
  | noRegister
  deriving DecidableEq, Repr, Inhabited

/-- The commands, in the order of the table. Operands name the object the command acts on; an order's operands stand in
its slot, so the intake commands carry none. -/
inductive Instr where
  /-- POSTING (R171): the host writes POSTED to the hand of `slot`. -/
  | posting (slot : Fin 32)
  /-- WITHDRAWAL (R171): the host writes EMPTY to the hand of a POSTED slot. -/
  | withdrawal (slot : Fin 32)
  /-- GIVE_BACK (R171): the host writes EMPTY to the hand of a DONE slot. -/
  | giveBack (slot : Fin 32)
  /-- TAKE (R149): the host writes the take code and `number` to the hand word of `cell`. -/
  | take (cell : Fin 50) (number : Byte)
  /-- HOST_WRITE (R159): the host writes `value` to the exchange word at byte address `addr`. -/
  | hostWrite (addr : BitVec 14) (value : Word)
  /-- HEARTBEAT_RELOAD (R181): the host writes `value` to the heartbeat count. -/
  | heartbeatReload (value : Word)
  /-- NEWS_FLAG_CLEAR (R162): the host writes 0 to a news flag. -/
  | newsFlagClear (flag : ClearableFlag)
  /-- DECK_CLOCK_LOW_READ (R158): the host reads the low word of the deck clock. -/
  | deckClockLowRead
  /-- WINDOW_WRITE (R164): the host writes `value` to WINDOW. -/
  | windowWrite (value : Word)
  /-- INTERRUPT_ENABLE_WRITE (R165): the host writes `value`, bit 1 clear, to CONTROL. -/
  | interruptEnableWrite (value : Word)
  /-- BRIDGE_RESET (R183): the host writes `value`, bit 1 set, to CONTROL. -/
  | bridgeReset (value : Word)
  /-- BRIDGE_RESET_END (R165): every unit has taken its bridge reset values. -/
  | bridgeResetEnd
  /-- REGISTER_WRITE_IGNORED (R166): the host writes `value` to a position that ignores writes. -/
  | registerWriteIgnored (position : IgnoredPosition) (value : Word)
  /-- POWER_ON_RESET (R168): nRESET is asserted. -/
  | powerOnReset
  /-- POWER_ON_CLEAR (R168): nRESET is released. -/
  | powerOnClear
  /-- POWER_ON_CLEAR_END (R168): the power-on clear ends. -/
  | powerOnClearEnd
  /-- START_SERVICE (R178): the intake of a START SERVICE order. -/
  | startService
  /-- START_TAKES_EFFECT (R179): the start of service takes effect. -/
  | startTakesEffect
  /-- ENTER_SETUP (R180): the intake of an ENTER SETUP order. -/
  | enterSetup
  /-- RESUME (R182): the intake of a RESUME order. -/
  | resume
  /-- ISOLATE_LINE (R27): the intake of an ISOLATE LINE order. -/
  | isolateLine
  /-- RESTORE_LINE (R28): the intake of a RESTORE LINE order. -/
  | restoreLine
  /-- TEST_STATION (R49): the intake of a TEST STATION order. -/
  | testStation
  /-- UNMUTE_STATION (R152): the intake of an UNMUTE STATION order. -/
  | unmuteStation
  /-- RAMP_LOWER (R75): the intake of a RAMP LOWER order. -/
  | rampLower
  /-- RAMP_RAISE (R76): the intake of a RAMP RAISE order. -/
  | rampRaise
  /-- RAMP_STOP (R86): the intake of a RAMP STOP order. -/
  | rampStop
  /-- RAMP_TRAFFIC (R91): the intake of a RAMP TRAFFIC order. -/
  | rampTraffic
  /-- CLOSE_BOUNDARY (R104): the intake of a CLOSE BOUNDARY order. -/
  | closeBoundary
  /-- CLOSE_ZONE (R120): the intake of a CLOSE ZONE order. -/
  | closeZone
  /-- RELEASE_BOUNDARY (R111): the intake of a RELEASE BOUNDARY order. -/
  | releaseBoundary
  /-- FORCE_COVER (R118): the intake of a FORCE COVER order. -/
  | forceCover
  /-- CALL (R127): the intake of a CALL order. -/
  | call
  /-- CANCEL_CALL (R129): the intake of a CANCEL CALL order. -/
  | cancelCall
  /-- REFUSED_KIND (R174): the intake of an order of unknown kind. -/
  | refusedKind
  /-- IDLE_WAIT_SUCCESS (R19): `line` has been idle for 20 bit times. -/
  | idleWaitSuccess (line : LineId)
  /-- IDLE_WAIT_TIMEOUT (R25): the idle wait on `line` has lasted 10 ms. -/
  | idleWaitTimeout (line : LineId)
  /-- RETRY (R26): a retry of the JAMMED `line` begins. -/
  | retry (line : LineId)
  /-- POLL_END (R20): the last stop bit of the POLL on `line` has been sent. -/
  | pollEnd (line : LineId)
  /-- REPLY_START (R20, R16): `heard`, the characters received on `line` in the reply wait, end with a sync pair. -/
  | replyStart (line : LineId) (heard : List RxChar)
  /-- NO_REPLY (R20): 1.0 ms has passed on `line` without a reply. -/
  | noReply (line : LineId)
  /-- RECEPTION_FAULT (R21): `chars`, received on `line` after the sync pair, hold a faulty character or length. -/
  | receptionFault (line : LineId) (chars : List RxChar)
  /-- TRUNCATED (R21): the reception deadline has passed on `line`. -/
  | truncated (line : LineId)
  /-- REPLY_FRAME (R22): `chars`, received on `line` after the sync pair, complete the frame. -/
  | replyFrame (line : LineId) (chars : List RxChar)
  /-- MOTION_PREWARN_EXPIRY (R79): the prewarn timer of `ramp` runs out. -/
  | motionPrewarnExpiry (ramp : Fin 4)
  /-- PLAY_LIMIT_EXPIRY (R79): the play limit of `ramp` runs out. -/
  | playLimitExpiry (ramp : Fin 4)
  /-- DEADMAN_WAIT_EXPIRY (R79): the deadman wait of `ramp` runs out. -/
  | deadmanWaitExpiry (ramp : Fin 4)
  /-- REVERSAL_DWELL_END (R87): the reversal dwell of `ramp` ends. -/
  | reversalDwellEnd (ramp : Fin 4)
  /-- PINS_TIMER_EXPIRY (R81): the pins timer of `ramp` runs out. -/
  | pinsTimerExpiry (ramp : Fin 4)
  /-- RESUME_TIMER_EXPIRY (R84): the resume timer of `ramp` runs out. -/
  | resumeTimerExpiry (ramp : Fin 4)
  /-- REQUEST_TIMER_EXPIRY (R88): the request timer of `ramp` runs out. -/
  | requestTimerExpiry (ramp : Fin 4)
  /-- DOOR_PREWARN_EXPIRY (R105): the prewarn timer of door `boundary` runs out. -/
  | doorPrewarnExpiry (boundary : Fin 24)
  /-- COVER_PREWARN_EXPIRY (R116): the prewarn timer of cover `boundary` runs out. -/
  | coverPrewarnExpiry (boundary : Fin 24)
  /-- CLOSING_LIMIT_EXPIRY (R107): the closing timer of `boundary` runs out. -/
  | closingLimitExpiry (boundary : Fin 24)
  /-- REVERSAL_TIMER_EXPIRY (R108): the reversal timer of `boundary` runs out. -/
  | reversalTimerExpiry (boundary : Fin 24)
  /-- PASSAGE_HOLD_EXPIRY (R110): the hold timer of `boundary` runs out. -/
  | passageHoldExpiry (boundary : Fin 24)
  /-- PASSAGE_CAP_EXPIRY (R110): the cap timer of `boundary` runs out. -/
  | passageCapExpiry (boundary : Fin 24)
  /-- PLAY_TIMEOUT (R139): the play timeout of `zone` runs out. -/
  | playTimeout (zone : Fin 16)
  /-- PAUSE_END (R138): the pause of `zone` ends. -/
  | pauseEnd (zone : Fin 16)
  /-- LAMP_LINGER_EXPIRY (R142): the lamp linger of `zone` runs out. -/
  | lampLingerExpiry (zone : Fin 16)
  /-- HEARTBEAT_DECREMENT (R181): a heartbeat period ends. -/
  | heartbeatDecrement
  /-- ABANDONED_POLL_CHARACTER_END (R23): the character being sent when a POLL was abandoned on `line` closes. -/
  | abandonedPollCharacterEnd (line : LineId)
  deriving DecidableEq, Repr, Inhabited

end Sys2Proof
end

