-- ==== Sys2Proof/Decode.lean ====
section
/-! DEFINITION. The words of the opcode table. The table gives none of its rows any bits: a command of this block is a bus
access, a line event or the expiry of a timer, never a word, so no word spells one (log entry 4). -/

namespace Sys2Proof

/-- The command that a word spells by the table's bits. No row has bits, so the answer is none for every word. -/
def decodeTableWord (_nbits _w : Nat) : Option Instr := none

end Sys2Proof
end

