-- ==== Sys2Proof/Config.lean ====
section
/-! DEFINITION. What the manual leaves free. -/

namespace Sys2Proof

/-- FREE VALUE (log entry 6). Section 12.3 says that, within one event, a ramp channel's request for its
warning record and the boundary unit's fire warning handover "may reach the call unit in either order".
`Config.fireHandoverFirst n` says whether the boundary unit's handover came first at the `n`-th such event. It has no
body: nothing can be proved of the order. -/
opaque Config.fireHandoverFirst : Nat → Bool

end Sys2Proof
end

