-- ==== Sys2Proof/Machine/State.lean ====
section
/-! DEFINITION. The state of the Moclane 620 as plain data: the exchange memory, the registers and pins, and the state of
each unit (0.4), and its value after a power-on reset. -/

namespace Sys2Proof.Machine

/-! ## Enumerations, in the order of their published codes -/

/-- The part states (Chapter 11): SETUP 0, SERVICE 1, SAFE-HOLD 2. -/
inductive PartState where
  | setup | service | safeHold
  deriving DecidableEq, Repr, Inhabited

/-- Where the power-on reset stands (R168): nRESET asserted, the power-on clear running, or the part running. -/
inductive PowerPhase where
  | inReset | clearing | running
  deriving DecidableEq, Repr, Inhabited

/-- The line states (R24): IDLE 0, RUNNING 1, JAMMED 2, ISOLATED 3. -/
inductive LineState where
  | idle | running | jammed | isolated
  deriving DecidableEq, Repr, Inhabited

/-- The outcomes of a poll exchange (2.4), in the order of the codes of R49. -/
inductive ExchangeOutcome where
  | good | noReply | truncated | parity | framing | crc | badHead | wrongAddress | wrongLength
  deriving DecidableEq, Repr, Inhabited

/-- The station kinds (R37): NONE 0, RAMP 1, PANEL 2, DOOR 3, CALL 4. -/
inductive StationKind where
  | none | ramp | panel | door | call
  deriving DecidableEq, Repr, Inhabited

/-- Line health (R39): GOOD 0, DOUBTFUL 1, LOST 2. -/
inductive Health where
  | good | doubtful | lost
  deriving DecidableEq, Repr, Inhabited

/-- The rotation class of a station (R30). -/
inductive Rotation where
  | slow | fast
  deriving DecidableEq, Repr, Inhabited

/-- The valve commands (R17): NEUTRAL 0, LOWER 1, RAISE 2, PINS-OUT 3, PINS-IN 4, FLOAT 5. -/
inductive Valve where
  | neutral | lower | raise | pinsOut | pinsIn | float
  deriving DecidableEq, Repr, Inhabited

/-- The speed bands (R17): none 0, CREEP 1, SLOW 2, FULL 3. -/
inductive Band where
  | none | creep | slow | full
  deriving DecidableEq, Repr, Inhabited

/-- The door drives (R17): HOLD-OPEN 0, CLOSE 1, OPEN 2, STOP 3. -/
inductive Drive where
  | holdOpen | close | opening | stop
  deriving DecidableEq, Repr, Inhabited

/-- The lamp patterns (R17): OFF 0, STEADY 1, SLOW FLASH 2, FAST FLASH 3. -/
inductive Lamp where
  | off | steady | slowFlash | fastFlash
  deriving DecidableEq, Repr, Inhabited

/-- The ramp states (5.13), UNKNOWN 0 to FAULTED 9. -/
inductive RampState where
  | unknown | stowed | warning | unlocking | lowering | landed | raising | locking | held | faulted
  deriving DecidableEq, Repr, Inhabited

/-- The hold and fault reasons (5.13); `none` is the value 0 of a state that has no reason (R70). -/
inductive Reason where
  | none | start | target | deadman | stop | order | silent | tipLost | bridgeLost | cover | switches
  | stall | wrongDirection | noLanding | noStowLimit | sensorRail | pins
  deriving DecidableEq, Repr, Inhabited

/-- The motion sources (R70): none 0, ORDER 1, PANEL 2, CLOSURE 3. -/
inductive Source where
  | none | order | panel | closure
  deriving DecidableEq, Repr, Inhabited

/-- The controls of a movement (Chapter 5): BRIDGE 0, LOCAL 1. -/
inductive Control where
  | bridge | atPanel
  deriving DecidableEq, Repr, Inhabited

/-- Direction and mode of the movement in hand (5.13): none 0, LOWER LAND 1, LOWER TO ANGLE 2, RAISE 3. -/
inductive Movement where
  | none | lowerLand | lowerToAngle | raise
  deriving DecidableEq, Repr, Inhabited

/-- The pending panel request (5.13): none 0, LOWER 1, RAISE 2. -/
inductive PanelRequest where
  | none | lower | raise
  deriving DecidableEq, Repr, Inhabited

/-- The boundary states (6.2), UNKNOWN 0 to FAILED 8. -/
inductive BoundaryState where
  | unknown | opened | prewarn | closing | reversing | closed | passage | blocked | failed
  deriving DecidableEq, Repr, Inhabited

/-- The closure demand (6.2): NONE 0, NORMAL 1, EMERGENCY 2. -/
inductive Demand where
  | none | normal | emergency
  deriving DecidableEq, Repr, Inhabited

/-- The block causes (6.10.1): none 0, OCCUPIED 1, RAMP STOPPED 2, RAISE REFUSED 3. -/
inductive BlockCause where
  | none | occupied | rampStopped | raiseRefused
  deriving DecidableEq, Repr, Inhabited

/-- The fire states of a zone (R4): NORMAL 0, ALERT 1, SEALED 2. -/
inductive FireState where
  | normal | alert | isSealed
  deriving DecidableEq, Repr, Inhabited

/-- The states of a call record (R125): FREE 0, ACTIVE 1, ENDED 2. -/
inductive RecordState where
  | free | active | ended
  deriving DecidableEq, Repr, Inhabited

/-- The outcome of a call in a zone (R125): none 0, PENDING 1, DONE 2, DROPPED 3, FAULT 4, NO STATION 5,
WITHDRAWN 6. -/
inductive CallOutcome where
  | none | pending | done | dropped | fault | noStation | withdrawn
  deriving DecidableEq, Repr, Inhabited

/-- The source of a call (7.8.1): 0 in a record never used, ORDER 1, RAMP 2, FIRE NORMAL 3, FIRE EMERGENCY 4. -/
inductive CallSource where
  | none | order | ramp | fireNormal | fireEmergency
  deriving DecidableEq, Repr, Inhabited

/-- The play states of a zone (R137). -/
inductive PlayState where
  | idle | waiting | playing | pause | hold
  deriving DecidableEq, Repr, Inhabited

/-- The hand of an order slot (10.1): EMPTY 0, POSTED 1, TAKEN 2, DONE 3. -/
inductive Hand where
  | empty | posted | taken | done
  deriving DecidableEq, Repr, Inhabited

/-- The result codes (10.4): OK 1 to RESET 15. -/
inductive Result where
  | ok | partly | refusedKind | refusedState | refusedTarget | refusedBusy | refusedInterlock | refusedConfig
  | tableFull | stopped | superseded | cancelled | heldTimeout | fault | reset
  deriving DecidableEq, Repr, Inhabited

/-- The eighteen attention kinds (8.2), STATION SILENT 1 to LINE ERRORS 18. -/
inductive AttentionKind where
  | stationSilent | stationBack | lineSwitch | panelRequest | panelStop | deadmanReleased | rampFault | floatDrift
  | floatLimit | tipLost | sensorRail | doorObstructed | doorFailed | coverBlocked | localPassage | callFault
  | lineJammed | lineErrors
  deriving DecidableEq, Repr, Inhabited

/-! ## The exchange memory -/

/-- The words of the exchange area that are held as bytes: the identity and version words, the configuration, the lamp
functions and the bodies of the order slots. The list holds the bytes that are not 0, at strictly rising addresses. The
other words of the exchange area are the published state of the units below, and `exchangeRead` forms them. -/
abbrev Memory := List Host.Cell

/-- A host access to the exchange area that waits on nRDY (R165, R168). -/
inductive HostAccess where
  /-- A write of `value` to the word at byte address `addr`. -/
  | write (addr : Nat) (value : Word)
  /-- A read of the low word of the deck clock. -/
  | readClockLow
  deriving DecidableEq, Repr, Inhabited

/-! ## Lines (Chapter 2) -/

/-- The slot pattern of a line (R31): the fast-slot count and the cursors of the two rotations. -/
structure Pattern where
  fastSlots  : Nat := 0
  fastCursor : Nat := 0
  slowCursor : Nat := 0
  deriving DecidableEq, Repr, Inhabited

/-- A test request (R29): the station, its kind when the request was made, and the slot of the order. -/
structure TestRequest where
  addr : Nat
  kind : StationKind
  slot : Nat
  deriving DecidableEq, Repr, Inhabited

/-- The phase of an exchange (2.4). The poll phase holds the frame being sent; the reception phase holds its deadline, in
microseconds after the start of the reply (R21). -/
inductive Phase where
  | idleWait
  | poll (frame : List Byte)
  | replyWait
  | reception (deadline : Nat)
  deriving DecidableEq, Repr, Inhabited

/-- A poll exchange: the station polled, its kind, the line bit rate, the slot pattern that the exchange leaves once its
POLL is sent, and the slot of its order when it is a test exchange. -/
structure Exchange where
  addr  : Nat
  kind  : StationKind
  rate  : Nat
  next  : Pattern
  test  : Option Nat
  phase : Phase
  deriving DecidableEq, Repr, Inhabited

/-- What a line controller is doing: nothing, the idle wait of a retry (R26), or an exchange. -/
inductive Activity where
  | quiet
  | retry
  | exchange (x : Exchange)
  deriving DecidableEq, Repr, Inhabited

/-- One line controller: its published status record (2.7.1) and the state it holds inside. -/
structure Line where
  edition         : Word := 0
  state           : LineState := .idle
  rate            : Nat := 0
  parityCount     : Nat := 0
  framingCount    : Nat := 0
  crcCount        : Nat := 0
  noReplyCount    : Nat := 0
  truncatedCount  : Nat := 0
  otherCount      : Nat := 0
  lastBlockMisses : Nat := 0
  blocks          : Word := 0
  errorBlocks     : Nat := 0
  jamCount        : Nat := 0
  fastMembers     : Nat := 0
  slowMembers     : Nat := 0
  stateStamp      : Stamp := 0
  /-- The error block: its position and its miss count (R35). -/
  blockPosition   : Nat := 0
  blockMisses     : Nat := 0
  pattern         : Pattern := {}
  /-- The switched-station list, oldest first (R32). -/
  switched        : List Nat := []
  /-- The test requests waiting, oldest first (R29). -/
  tests           : List TestRequest := []
  activity        : Activity := .quiet
  /-- When the next retry of a JAMMED line is due (R26). -/
  retryAt         : Stamp := 0
  /-- The driver enable DEA or DEB (R13). -/
  driver          : Bool := false
  /-- A POLL was abandoned and its last character is still being sent (R23). -/
  releasing       : Bool := false
  deriving DecidableEq, Repr, Inhabited

/-! ## Stations (Chapter 3) -/

/-- A station's standing on one line (3.2). -/
structure Standing where
  health      : Health := .good
  missRun     : Nat := 0
  recoveryRun : Nat := 0
  deriving DecidableEq, Repr, Inhabited

/-- A discrete input (3.4): its confirmed value and its pending value, each absent or present. -/
structure InputCell where
  confirmed   : Option Bool := none
  pendingValue : Option Bool := none
  deriving DecidableEq, Repr, Inhabited

/-- The configuration of a station (R37). -/
structure StationConfig where
  kind        : StationKind := .none
  homeLine    : LineId := .a
  level       : Nat := 0
  muteOnTake  : Bool := false
  deriving DecidableEq, Repr, Inhabited

/-- One station: its status section (3.8.1), its standings and its inputs. `published` is the confirmed inputs byte. -/
structure Station where
  edition     : Word := 0
  onA         : Standing := {}
  onB         : Standing := {}
  current     : LineId := .a
  silent      : Bool := false
  established : Bool := false
  published   : Byte := 0
  muted       : Bool := false
  mutedCount  : Nat := 0
  lastReply   : Stamp := 0
  inputs      : Vector InputCell 5 := Vector.replicate 5 {}
  deriving DecidableEq, Repr, Inhabited

/-- The outputs of a call station (R17). -/
structure CallOutput where
  message : Nat := 0
  token   : Nat := 0
  lamp    : Lamp := .off
  stop    : Bool := true
  deriving DecidableEq, Repr, Inhabited

/-- The output record of a station (R47), by kind. -/
inductive Output where
  | none
  | ramp (valve : Valve) (band : Band)
  | panel (permitted waiting go stop : Bool)
  | door (drive : Drive) (beacon : Bool)
  | call (o : CallOutput)
  deriving DecidableEq, Repr, Inhabited

/-! ## Ramps (Chapters 4 and 5) -/

/-- One entry of an angle history (R58). -/
structure AngleEntry where
  angle : Int
  stamp : Stamp
  deriving DecidableEq, Repr, Inhabited

/-- One ramp channel: its status section (R70), the arithmetic state of 4.1, and the timers, wants and records that
R70 and R77 hold inside the channel. Timers hold the deck clock value at which they run out. -/
structure Ramp where
  edition      : Word := 0
  state        : RampState := .unknown
  reason       : Reason := .none
  filtered     : Nat := 0
  angle        : Int := 0
  velocity     : Int := 0
  landingAngle : Int := 0
  valve        : Valve := .neutral
  band         : Band := .none
  permit       : Bool := false
  angleValid   : Bool := false
  clamped      : Bool := false
  heard        : Bool := false
  source       : Source := .none
  slot         : Nat := 0
  control      : Control := .bridge
  movement     : Movement := .none
  request      : PanelRequest := .none
  target       : Int := 0
  requestStamp : Stamp := 0
  stateStamp   : Stamp := 0
  rest         : RampState := .unknown
  /-- Arithmetic state (4.1). -/
  lastSequence : Option Nat := none
  railRun      : Nat := 0
  rawHistory   : List Nat := []
  angleHistory : List AngleEntry := []
  wrongRun     : Nat := 0
  phaseSamples : Nat := 0
  driftWarned  : Bool := false
  driftLimit   : Bool := false
  /-- The hold reason recorded with the rest state (R78) and the resume state of a deadman hold (R84). -/
  restReason   : Reason := .none
  resume       : Option RampState := none
  /-- The three warning wants (R77). -/
  motionWant   : Bool := false
  driftWant    : Bool := false
  coverWant    : Bool := false
  /-- The prewarn timer, or the reversal dwell that stands in its place (R78, R87). -/
  prewarnEnd   : Option Stamp := none
  dwell        : Bool := false
  playLimit    : Option Stamp := none
  deadmanWait  : Option Stamp := none
  pinsTimer    : Option Stamp := none
  resumeTimer  : Option Stamp := none
  requestTimer : Option Stamp := none
  deriving DecidableEq, Repr, Inhabited

/-! ## Fire boundaries (Chapter 6) -/

/-- One boundary: its status section (R101) and its reversal timer. A timer that does not run is `none`. -/
structure Boundary where
  edition      : Word := 0
  state        : BoundaryState := .unknown
  demand       : Demand := .none
  obstructions : Nat := 0
  blockCause   : BlockCause := .none
  blockDetail  : Nat := 0
  drive        : Drive := .holdOpen
  beacon       : Bool := false
  occupancy    : Bool := false
  openingMark  : Bool := false
  waiting      : List Nat := []
  prewarnEnd   : Option Stamp := none
  closingStart : Option Stamp := none
  holdEnd      : Option Stamp := none
  capEnd       : Option Stamp := none
  stateStamp   : Stamp := 0
  reversalEnd  : Option Stamp := none
  deriving DecidableEq, Repr, Inhabited

/-- What the boundary unit keeps for the CLOSE ZONE order of a slot (R120): whether it is in hand, and its masks. -/
structure ZoneOrder where
  inHand     : Bool := false
  closedMask : BitVec 32 := 0
  failedMask : BitVec 32 := 0
  deriving DecidableEq, Repr, Inhabited

/-! ## Calls (Chapter 7) -/

/-- An entry of the working catalogue (R123). -/
structure CatalogueEntry where
  duration : Nat := 0
  lamp     : Lamp := .off
  tone     : Bool := false
  deriving DecidableEq, Repr, Inhabited

/-- A call's progress in one zone (R125). -/
structure Progress where
  heard   : Nat := 0
  outcome : CallOutcome := .none
  deriving DecidableEq, Repr, Inhabited

/-- One call record (R125). -/
structure CallRecord where
  edition     : Word := 0
  state       : RecordState := .free
  issue       : Byte := 0
  message     : Nat := 0
  priority    : Nat := 0
  repeats     : Nat := 0
  source      : CallSource := .none
  sourceIndex : Nat := 0
  tag         : Word := 0
  zoneSet     : Word := 0
  progress    : Vector Progress 16 := Vector.replicate 16 {}
  startStamp  : Stamp := 0
  endStamp    : Stamp := 0
  deriving DecidableEq, Repr, Inhabited

/-- One entry of a zone queue (7.5). -/
structure QueueEntry where
  record   : Nat
  priority : Nat
  deriving DecidableEq, Repr, Inhabited

/-- What the call unit holds for one zone (R133, R137, R142). -/
structure ZoneCalls where
  queue      : List QueueEntry := []
  play       : PlayState := .idle
  token      : Nat := 0
  lastCount  : Nat := 0
  lastId     : Nat := 0
  known      : Bool := false
  startCount : Nat := 0
  timeout    : Option Stamp := none
  pauseEnd   : Option Stamp := none
  lingerEnd  : Option Stamp := none
  deriving DecidableEq, Repr, Inhabited

/-! ## Zones (Chapter 1) -/

/-- The status section of a zone (R4). -/
structure Zone where
  edition     : Word := 0
  fire        : FireState := .normal
  demandCount : Nat := 0
  rampOpen    : Bool := false
  /-- Bits 0 to 3: closed flags of the adjacency entries; bits 4 to 7: their demand flags. -/
  adjacent    : Byte := 0
  playRecord  : Nat := 0
  playIssue   : Byte := 0
  queueLength : Nat := 0
  playEnd     : Stamp := 0
  deriving DecidableEq, Repr, Inhabited

/-- One entry of the boundary view (R5). -/
structure BoundaryView where
  state  : BoundaryState := .unknown
  demand : Demand := .none
  deriving DecidableEq, Repr, Inhabited

/-! ## Attention (Chapter 8) -/

/-- One attention cell (R144). -/
structure AttentionCell where
  fresh   : Bool := false
  number  : Byte := 0
  kind    : Option AttentionKind := none
  level   : Nat := 0
  detail  : Word := 0
  repeats : Nat := 0
  edition : Byte := 0
  first   : Stamp := 0
  last    : Stamp := 0
  deriving DecidableEq, Repr, Inhabited

/-! ## The units and the machine -/

/-- The state of the units that work on the decks. Tables are indexed from 0; station address `n` has index `n - 1`. -/
structure Deck where
  lineA       : Line := {}
  lineB       : Line := {}
  /-- The rotation class table (R30). -/
  classes     : Vector Rotation 48 := Vector.replicate 48 .slow
  stations    : Vector Station 48 := Vector.replicate 48 {}
  /-- The working copy of the station table (R37). -/
  working     : Vector StationConfig 48 := Vector.replicate 48 {}
  /-- The output records (R47). -/
  outputs     : Vector Output 48 := Vector.replicate 48 .none
  ramps       : Vector Ramp 4 := Vector.replicate 4 {}
  boundaries  : Vector Boundary 24 := Vector.replicate 24 {}
  /-- The CLOSE ZONE orders in hand, by slot (R120). -/
  zoneOrders  : Vector ZoneOrder 32 := Vector.replicate 32 {}
  /-- The NORMAL and EMERGENCY fire warning zone sets (R121). -/
  fireNormal    : Word := 0
  fireEmergency : Word := 0
  /-- The working copy of the catalogue (R123). -/
  catalogue   : Vector CatalogueEntry 64 := Vector.replicate 64 {}
  records     : Vector CallRecord 32 := Vector.replicate 32 {}
  zoneCalls   : Vector ZoneCalls 16 := Vector.replicate 16 {}
  zones       : Vector Zone 16 := Vector.replicate 16 {}
  boundaryView : Vector BoundaryView 24 := Vector.replicate 24 {}
  rampView    : Vector RampState 4 := Vector.replicate 4 .unknown
  cells       : Vector AttentionCell 50 := Vector.replicate 50 {}
  /-- The model's own: how many order races of `Config.fireHandoverFirst` have been settled (log entry 6). -/
  races       : Nat := 0
  deriving DecidableEq, Repr, Inhabited

/-- The whole machine: the units, the exchange memory, the header, the order unit, the service unit, the registers and
the pins, and the queue of commands that wait. -/
structure State extends Deck where
  /-- The commands that wait, first in, first out. -/
  pending        : List Instr := []
  ram            : Memory := []
  /-- The deck clock and the clock latch (R158). -/
  deckClock      : Stamp := 0
  clockLatch     : Word := 0
  partState      : PartState := .setup
  /-- The heartbeat count, and when the running heartbeat period ends (R181). -/
  heartbeat      : Nat := 0
  heartbeatEnd   : Option Stamp := none
  /-- The slot of the START SERVICE order that is TAKEN (R179). -/
  starting       : Option Nat := none
  /-- The order unit (R170, R171, R175): the hands, the arrival list and the done count. -/
  hands          : Vector Hand 32 := Vector.replicate 32 .empty
  arrivals       : List Nat := []
  doneCount      : Nat := 0
  /-- The news flags (R162) and the news enables, bits 0 to 3 (9.2). -/
  orderDone      : Bool := false
  statusEdited   : Bool := false
  stateChanged   : Bool := false
  attentionFlag  : Bool := false
  newsEnables    : BitVec 4 := 0
  /-- The attention summary (R153): next cell, per-level fresh counts (level `n` at index `n - 1`), stale takes. -/
  nextCell       : Nat := 0
  freshCounts    : Vector Nat 7 := Vector.replicate 7 0
  staleTakes     : Nat := 0
  /-- The refused-write count and the last refused address (R160). -/
  refusedWrites  : Nat := 0
  lastRefused    : Nat := 0
  /-- The registers WINDOW (R164) and CONTROL, of which the interrupt enable is held (R165). -/
  window         : Word := 0
  interruptEnable : Bool := false
  power          : PowerPhase := .inReset
  /-- A bridge reset is in progress (R165). -/
  bridgeResetting : Bool := false
  /-- The host accesses that wait on nRDY, oldest first (R165, R168). -/
  held           : List HostAccess := []
  /-- D0 to D15 as last driven by a read of the exchange area (9.10). -/
  dataOut        : Word := 0
  /-- The output pins: nBINT (true is high), ST0 and ST1 (R163, R169). -/
  nBINT          : Bool := true
  st0            : Bool := false
  st1            : Bool := false
  deriving DecidableEq, Repr, Inhabited

/-- The faults of the machine. The manual names no event that stops the part, and no command of the model stops it, so
there is none. -/
inductive Fault where
  deriving DecidableEq, Repr

/-- The refusals of the machine. -/
inductive Refusal where
  /-- Raised by `exec` for a command that has no meaning in the model. Safe: nothing is claimed of it. No arm of `exec`
  raises it now. -/
  | notModelled (mnemonic : String)
  deriving DecidableEq, Repr

/-- The machine right after a power-on reset (R168): nRESET has been released and the power-on clear has ended. Every word
of the exchange area is 0 but for the identity word, the exchange version word and the next cell value 255; the deck
clock is 0; the part is in SETUP; the window and the interrupt enable are off. -/
def State.reset : State :=
  { power := .running, ram := [(0, 0x14), (1, 0x0D), (2, 0x01)], nextCell := 255 }

end Sys2Proof.Machine
end

