-- ==== Sys2Proof/Machine/Frames.lean ====
section
/-! DEFINITION. Characters and frames on a deck line (R13 to R18, R20 to R22): the CRC, the POLL, the sync hunt and the
reception of a REPLY. -/

namespace Sys2Proof.Machine

/-! ## Characters (R13) -/

/-- One bit time, in microseconds, at a line bit rate code; a code other than 0, 1 and 2 runs at 62.5 kbit/s (R13). -/
def bitMicros (rate : Nat) : Nat :=
  if rate = 1 then 8 else if rate = 2 then 4 else 16

/-- The number of ones among the eight data bits. -/
def onesOf (b : Byte) : Nat :=
  ((List.range 8).filter fun i => b.getLsbD i).length

/-- Data and parity together hold an even number of ones (R13). -/
def parityOk (c : RxChar) : Bool :=
  (onesOf c.data + (if c.parity then 1 else 0)) % 2 == 0

/-- A character without parity or framing fault (R16). -/
def sound (c : RxChar) : Bool :=
  c.stop && parityOk c

/-- The character that sends byte `b` (R13). -/
def charOf (b : Byte) : RxChar :=
  { data := b, parity := onesOf b % 2 == 1, stop := true }

/-! ## The frame check (R15) -/

/-- One data bit of the check: shift left, and combine with 0x1021 when the top bit differs from the data bit. -/
def crcBit (c : Word) (bit : Bool) : Word :=
  if c.msb = bit then c <<< 1 else (c <<< 1) ^^^ 0x1021

/-- One byte of the check, most significant bit first. -/
def crcByte (c : Word) (b : Byte) : Word :=
  [7, 6, 5, 4, 3, 2, 1, 0].foldl (fun acc i => crcBit acc (b.getLsbD i)) c

/-- The 16-bit check over a list of bytes, from 0xFFFF, without final inversion (R15). -/
def crc16 (bytes : List Byte) : Word :=
  bytes.foldl crcByte 0xFFFF

/-- The high and the low byte of a word. -/
def highByte (w : Word) : Byte := (w >>> 8).setWidth 8

/-- The low byte of a word. -/
def lowByte (w : Word) : Byte := w.setWidth 8

/-! ## Payloads (R17, R18) -/

/-- The payload length of a POLL to a station of this kind (R17). -/
def pollLength : StationKind → Nat
  | .none => 0
  | .ramp => 2
  | .panel => 1
  | .door => 1
  | .call => 2

/-- The payload length of the REPLY of a station of this kind (R18). -/
def replyLength : StationKind → Nat
  | .none => 0
  | .ramp => 3
  | .panel => 1
  | .door => 1
  | .call => 2

/-- The code of a valve command (R17). -/
def Valve.code : Valve → Nat
  | .neutral => 0 | .lower => 1 | .raise => 2 | .pinsOut => 3 | .pinsIn => 4 | .float => 5

/-- The code of a speed band (R17). -/
def Band.code : Band → Nat
  | .none => 0 | .creep => 1 | .slow => 2 | .full => 3

/-- The code of a door drive (R17). -/
def Drive.code : Drive → Nat
  | .holdOpen => 0 | .close => 1 | .opening => 2 | .stop => 3

/-- The code of a lamp pattern (R17). -/
def Lamp.code : Lamp → Nat
  | .off => 0 | .steady => 1 | .slowFlash => 2 | .fastFlash => 3

/-- A flag as a bit of weight `w`. -/
def bitOf (b : Bool) (w : Nat) : Nat := if b then w else 0

/-- The neutral outputs of a kind (R17). -/
def neutralOutput : StationKind → Output
  | .none => .none
  | .ramp => .ramp .neutral .none
  | .panel => .panel false false false true
  | .door => .door .holdOpen false
  | .call => .call {}

/-- The POLL payload that carries an output record (R17). -/
def pollPayload : Output → List Byte
  | .none => []
  | .ramp v b => [BitVec.ofNat 8 v.code, BitVec.ofNat 8 b.code]
  | .panel p w g s => [BitVec.ofNat 8 (bitOf p 1 + bitOf w 2 + bitOf g 4 + bitOf s 8)]
  | .door d beacon => [BitVec.ofNat 8 (d.code + bitOf beacon 4)]
  | .call o => [BitVec.ofNat 8 o.message, BitVec.ofNat 8 (o.token % 16 + 16 * o.lamp.code + bitOf o.stop 64)]

/-- The head byte of a frame: kind 01 POLL or 10 REPLY in bits 7 to 6, the address in bits 5 to 0 (R14). -/
def headByte (reply : Bool) (addr : Nat) : Byte :=
  BitVec.ofNat 8 ((if reply then 0x80 else 0x40) + addr % 64)

/-- A whole frame: the sync bytes, head, length, payload and the two CRC bytes, high byte first (R14). -/
def frameOf (reply : Bool) (addr : Nat) (payload : List Byte) : List Byte :=
  let body := headByte reply addr :: BitVec.ofNat 8 payload.length :: payload
  let c := crc16 body
  [0xC3, 0x3C] ++ body ++ [highByte c, lowByte c]

/-- The POLL frame that carries `out` to `addr` (R14, R17, R19). -/
def pollFrame (addr : Nat) (out : Output) : List Byte :=
  frameOf false addr (pollPayload out)

/-! ## The sync hunt (R16) -/

/-- The hunt over a list of characters: true when its last two characters are the first sync pair in it. `armed` says
that the character before was a sound 0xC3. -/
def huntFrom (armed : Bool) : List RxChar → Bool
  | [] => false
  | c :: rest =>
    if armed && sound c && c.data == 0x3C then rest.isEmpty
    else huntFrom (sound c && c.data == 0xC3) rest

/-- The characters heard in a reply wait end with the sync pair that begins a reply (R16, R20). -/
def syncHunt (heard : List RxChar) : Bool := huntFrom false heard

/-! ## Reception (R21, R22) -/

/-- What the characters after the sync pair amount to. -/
inductive Reception where
  /-- The frame is not complete yet. -/
  | incomplete
  /-- A character ended the exchange at once with this outcome (R21). -/
  | faulty (o : ExchangeOutcome)
  /-- The frame is complete: head, length, payload and received check. -/
  | complete (head length : Byte) (payload : List Byte) (check : Word)
  deriving DecidableEq, Repr

/-- The fault of one character, stop bit before parity (R21). -/
def charFault (c : RxChar) : Option ExchangeOutcome :=
  if !c.stop then some .framing else if !parityOk c then some .parity else none

/-- The first faulty character among the first `n`, or their data bytes, or `none` when fewer than `n` have come. -/
def takeChars : Nat → List RxChar → Option (Except ExchangeOutcome (List Byte × List RxChar))
  | 0, rest => some (.ok ([], rest))
  | _ + 1, [] => none
  | n + 1, c :: rest =>
    match charFault c with
    | some o => some (.error o)
    | none =>
      match takeChars n rest with
      | some (.ok (bs, r)) => some (.ok (c.data :: bs, r))
      | some (.error o) => some (.error o)
      | none => none

/-- The reception of the characters that follow the sync pair: each is checked as it arrives, a length above 8 ends the
exchange at once, and the frame is complete with the payload and two CRC characters (R21). Later characters belong to no
exchange. -/
def receive (chars : List RxChar) : Reception :=
  match takeChars 2 chars with
  | none => .incomplete
  | some (.error o) => .faulty o
  | some (.ok (bs, rest)) =>
    let head := bs.getD 0 0
    let length := bs.getD 1 0
    if length.toNat > 8 then .faulty .wrongLength
    else
      match takeChars (length.toNat + 2) rest with
      | none => .incomplete
      | some (.error o) => .faulty o
      | some (.ok (body, _)) =>
        .complete head length (body.take length.toNat)
          ((body.getD length.toNat 0).setWidth 16 <<< 8 ||| (body.getD (length.toNat + 1) 0).setWidth 16)

/-- The class of a complete frame: the first failing check of CRC, frame kind, address and length (R22). -/
def classify (kind : StationKind) (addr : Nat) (head length : Byte) (payload : List Byte) (check : Word) :
    ExchangeOutcome :=
  if crc16 (head :: length :: payload) ≠ check then .crc
  else if head.toNat / 64 ≠ 2 then .badHead
  else if head.toNat % 64 ≠ addr then .wrongAddress
  else if length.toNat ≠ replyLength kind then .wrongLength
  else .good

/-- The reception deadline after the start of a reply, in microseconds (R21): (L + 6) × 11 bit times and 0.5 ms. -/
def receptionDeadline (kind : StationKind) (rate : Nat) : Nat :=
  (replyLength kind + 6) * 11 * bitMicros rate + 500

end Sys2Proof.Machine
end

