-- ==== Sys2Proof/Machine/Ops.lean ====
section
/-! DEFINITION. The named operations that every unit uses: tables, timers, saturating counts, the bytes of the exchange
memory, and the work of one event. -/

namespace Sys2Proof.Machine

/-! ## Tables -/

/-- Entry `i` of a table; a table has no entry beyond its end, and reads as the default there. -/
def tget {α : Type} {n : Nat} [Inhabited α] (t : Vector α n) (i : Nat) : α := t[i]?.getD default

/-- The table with entry `i` replaced; beyond the end nothing is replaced. -/
def tput {α : Type} {n : Nat} (t : Vector α n) (i : Nat) (a : α) : Vector α n := t.setIfInBounds i a

/-- The table with entry `i` changed by `f`. -/
def tmod {α : Type} {n : Nat} [Inhabited α] (t : Vector α n) (i : Nat) (f : α → α) : Vector α n :=
  tput t i (f (tget t i))

/-- The table whose entry `i` is `f i`. -/
def tabulate {α : Type} (n : Nat) (f : Nat → α) : Vector α n := ⟨⟨(List.range n).map f⟩, by simp⟩

/-! ## Counts and times -/

/-- A count that stops at `top` (0.6.4). -/
def satAdd (top n : Nat) : Nat := if n < top then n + 1 else n

/-- The deck clock value `ms` milliseconds after `t`, modulo 2³² (0.6.2). -/
def after (t : Stamp) (ms : Nat) : Stamp := t + BitVec.ofNat 32 ms

/-- The clock has reached the value `t`: the interval since `t` is shorter than half the wrap period (0.6.2, log
entry 3). -/
def reached (now t : Stamp) : Bool := decide ((now - t).toNat < 2 ^ 31)

/-- A running timer has run out. -/
def timerDue (now : Stamp) : Option Stamp → Bool
  | some t => reached now t
  | none => false

/-- A timer as its published stamp: 0 while it does not run (R101). -/
def timerStamp (t : Option Stamp) : Stamp := t.getD 0

/-! ## The bytes of the exchange memory -/

/-- What a byte that the memory does not list reads as: the power-on clear writes 0 into every word (R168). -/
def unlistedByte : Byte := 0

/-- The byte at address `a`. -/
def memRead : Memory → Nat → Byte
  | [], _ => unlistedByte
  | (k, v) :: rest, a => if k = a then v else memRead rest a

/-- The memory with byte `v` at address `a`, in canonical form. -/
def memWrite : Memory → Nat → Byte → Memory
  | [], a, v => if v = unlistedByte then [] else [(a, v)]
  | (k, w) :: rest, a, v =>
    if a < k then (if v = unlistedByte then (k, w) :: rest else (a, v) :: (k, w) :: rest)
    else if a = k then (if v = unlistedByte then rest else (a, v) :: rest)
    else (k, w) :: memWrite rest a v

/-- The canonical form above address `low`: addresses strictly rising from it, and no byte that need not be listed. -/
def memWfFrom : Nat → Memory → Bool
  | _, [] => true
  | low, (k, v) :: rest => decide (low ≤ k) && decide (v ≠ unlistedByte) && memWfFrom (k + 1) rest

/-- The canonical form of the exchange memory. -/
def Memory.wf (m : Memory) : Bool := memWfFrom 0 m

/-- A list of bytes written from address `a` upward. -/
def memWriteBytes (m : Memory) (a : Nat) : List Byte → Memory
  | [] => m
  | b :: rest => memWriteBytes (memWrite m a b) (a + 1) rest

/-- A word written at the even address `a`, low byte first (0.6.5). -/
def memWriteWord (m : Memory) (a : Nat) (w : Word) : Memory :=
  memWrite (memWrite m a (lowByte w)) (a + 1) (highByte w)

/-- The word at the even address `a`, low byte first (0.6.5). -/
def memReadWord (m : Memory) (a : Nat) : Word :=
  (memRead m (a + 1)).setWidth 16 <<< 8 ||| (memRead m a).setWidth 16

/-- The byte at `a` as a number. -/
def byteAt (m : Memory) (a : Nat) : Nat := (memRead m a).toNat

/-- The word at `a` as a number. -/
def wordAt (m : Memory) (a : Nat) : Nat := (memReadWord m a).toNat

/-- The word at `a` as a signed angle (0.6.1). -/
def signedAt (m : Memory) (a : Nat) : Int := (memReadWord m a).toInt

/-! ## Bytes of results -/

/-- A number as one byte. -/
def byteOf (n : Nat) : Byte := BitVec.ofNat 8 n

/-- A word as two bytes, low byte first. -/
def wordBytes (w : Word) : List Byte := [lowByte w, highByte w]

/-- A signed angle as a word (0.6.1). -/
def angleWord (x : Int) : Word := BitVec.ofInt 16 x

/-- A stamp or a mask as four bytes, low byte first. -/
def stampBytes (t : BitVec 32) : List Byte :=
  [t.setWidth 8, (t >>> 8).setWidth 8, (t >>> 16).setWidth 8, (t >>> 24).setWidth 8]

/-- Sixteen bytes of result detail, the given ones first and 0 after them (R175). -/
def detailOf (bytes : List Byte) : List Byte := (bytes ++ List.replicate 16 0).take 16

/-! ## The work of one event -/

/-- What a unit reads but never writes during an event: the exchange memory, the deck clock, the part state, and whether
a START SERVICE order is TAKEN. -/
structure Env where
  ram      : Memory
  now      : Stamp
  part     : PartState
  starting : Bool

/-- A completion report of an owning unit to the order unit (R175). -/
structure Completion where
  slot   : Nat
  result : Result
  detail : List Byte
  deriving DecidableEq, Repr, Inhabited

/-- A notice of the call unit to a ramp channel (R132). -/
inductive Notice where
  | heard (ramp : Nat)
  | silent (ramp : Nat)
  deriving DecidableEq, Repr, Inhabited

/-- The units during one event, with what the event hands on at its end: completion reports in the order they were made,
the zones in which a play has ended (R8), and the notices not yet delivered (R132). -/
structure Work extends Deck where
  outbox    : List Completion := []
  playEnded : List Nat := []
  notices   : List Notice := []
  deriving Inhabited

/-- A completion report. -/
def complete (slot : Nat) (result : Result) (detail : List Byte) (w : Work) : Work :=
  { w with outbox := w.outbox ++ [⟨slot, result, detail⟩] }

/-- Runs `f` for each index of a list, in order. -/
def each {α : Type} (l : List α) (f : α → Work → Work) (w : Work) : Work :=
  l.foldl (fun acc x => f x acc) w

/-! ## Lines and stations by name -/

/-- The other deck line. -/
def flipLine : LineId → LineId
  | .a => .b
  | .b => .a

/-- The number of a line: 0 for A, 1 for B. -/
def lineNumber : LineId → Nat
  | .a => 0
  | .b => 1

/-- The state of a line controller. -/
def lineOf (d : Deck) : LineId → Line
  | .a => d.lineA
  | .b => d.lineB

/-- A line controller changed by `f`. -/
def modLine (l : LineId) (f : Line → Line) (w : Work) : Work :=
  match l with
  | .a => { w with lineA := f w.lineA }
  | .b => { w with lineB := f w.lineB }

/-- The index of a station address; address 0 means "no station" and names no entry (0.6.6). -/
def stationIndex (addr : Nat) : Nat := if addr = 0 then 48 else addr - 1

/-- The state of the station at an address. -/
def stationOf (d : Deck) (addr : Nat) : Station := tget d.stations (stationIndex addr)

/-- The working configuration of the station at an address (R37). -/
def workingOf (d : Deck) (addr : Nat) : StationConfig := tget d.working (stationIndex addr)

/-- The output record of the station at an address (R47). -/
def outputOf (d : Deck) (addr : Nat) : Output := tget d.outputs (stationIndex addr)

/-- A station changed by `f`. -/
def modStation (addr : Nat) (f : Station → Station) (w : Work) : Work :=
  { w with stations := tmod w.stations (stationIndex addr) f }

/-- An output record written by the serving unit (R47). -/
def setOutput (addr : Nat) (o : Output) (w : Work) : Work :=
  { w with outputs := tput w.outputs (stationIndex addr) o }

/-- A rotation class written by a job unit (R30). -/
def setClass (addr : Nat) (c : Rotation) (w : Work) : Work :=
  { w with classes := tput w.classes (stationIndex addr) c }

/-- A ramp channel changed by `f`. -/
def modRamp (u : Nat) (f : Ramp → Ramp) (w : Work) : Work :=
  { w with ramps := tmod w.ramps u f }

/-- A boundary changed by `f`. -/
def modBoundary (b : Nat) (f : Boundary → Boundary) (w : Work) : Work :=
  { w with boundaries := tmod w.boundaries b f }

/-- The calls of a zone changed by `f`. -/
def modZoneCalls (z : Nat) (f : ZoneCalls → ZoneCalls) (w : Work) : Work :=
  { w with zoneCalls := tmod w.zoneCalls z f }

/-- A call record changed by `f`. -/
def modRecord (r : Nat) (f : CallRecord → CallRecord) (w : Work) : Work :=
  { w with records := tmod w.records r f }

/-- The value of a line's standing for a station. -/
def Station.on (s : Station) : LineId → Standing
  | .a => s.onA
  | .b => s.onB

/-- A station with its standing on a line replaced. -/
def Station.withStanding (s : Station) (l : LineId) (x : Standing) : Station :=
  match l with
  | .a => { s with onA := x }
  | .b => { s with onB := x }

/-- Input `i` of the station at `addr` is confirmed set. A unit knows the inputs of an established station only
(R45). -/
def inputSet (d : Deck) (addr i : Nat) : Bool :=
  let s := stationOf d addr
  s.established && (tget s.inputs i).confirmed == some true

/-- Input `i` of the station at `addr` is confirmed clear. -/
def inputClear (d : Deck) (addr i : Nat) : Bool :=
  let s := stationOf d addr
  s.established && (tget s.inputs i).confirmed == some false

/-! ## What the station unit hands to a job unit (R46) -/

/-- The three reports of a GOOD reply. -/
inductive ReportKind where
  | established | reply | unconfirmed
  deriving DecidableEq, Repr, Inhabited

/-- A report of the station unit: its kind, the inputs whose confirmed value changed with their new values, the two
unconfirmed values (sequence and raw count of a ramp, playing message id and completion count of a call station), and
the exchange end stamp. -/
structure StationReport where
  kind    : ReportKind
  changed : List (Nat × Bool)
  first   : Nat
  second  : Nat
  stamp   : Stamp
  deriving DecidableEq, Repr, Inhabited

/-- The report confirms input `i` set. -/
def StationReport.confirmsSet (r : StationReport) (i : Nat) : Bool := r.changed.contains (i, true)

/-- The report confirms input `i` clear. -/
def StationReport.confirmsClear (r : StationReport) (i : Nat) : Bool := r.changed.contains (i, false)

/-! ## The tick -/

/-- One millisecond of the deck clock. The clock starts when nRESET is released (R168). -/
def State.tick (s : State) : State :=
  { s with deckClock := if s.power = .inReset then s.deckClock else s.deckClock + 1 }

/-- What the units read of the machine during an event. -/
def State.env (s : State) : Env :=
  { ram := s.ram, now := s.deckClock, part := s.partState, starting := s.starting.isSome }

end Sys2Proof.Machine
end

