-- ==== Sys2Proof/Machine/Operands.lean ====
section
/-! DEFINITION. The operands of the commands: the configuration records of the exchange area (R1, R37, R69, R98, R123,
9.2), the order slots (10.1), and the published codes of the enumerations. -/

namespace Sys2Proof.Machine

/-! ## Where the records stand (9.1) -/

/-- The first byte of order slot `s`. -/
def slotBase (s : Nat) : Nat := 0x0100 + 64 * s

/-- The first byte of the record of station address `n`. -/
def stationBase (n : Nat) : Nat := 0x0900 + 32 * (n - 1)

/-- The first byte of attention cell `c`. -/
def cellBase (c : Nat) : Nat := 0x0F00 + 16 * c

/-- The first byte of the record of zone `z`. -/
def zoneBase (z : Nat) : Nat := 0x1300 + 48 * z

/-- The first byte of the record of boundary `b`. -/
def boundaryBase (b : Nat) : Nat := 0x1600 + 64 * b

/-- The first byte of the record of ramp `u`. -/
def rampBase (u : Nat) : Nat := 0x1C00 + 256 * u

/-- The first byte of the catalogue entry of message `n`. -/
def catalogueBase (n : Nat) : Nat := 0x2000 + 16 * n

/-! ## Codes -/

/-- The station kind of a code (R37). A code above 4 passes no check of R38, but can stand in the table in SETUP; it names no
kind and counts as NONE there, so TEST STATION (R49) completes REFUSED-TARGET on it (R174, log entry 45). -/
def stationKindOf (n : Nat) : StationKind :=
  match n with
  | 1 => .ramp
  | 2 => .panel
  | 3 => .door
  | 4 => .call
  | _ => .none

/-- The line of a home line code: 1 is B. Only 0 and 1 pass R38; any other value stands for A (log entry 20). -/
def lineOfCode (n : Nat) : LineId := if n = 1 then .b else .a

/-- The lamp pattern of a code. -/
def lampOfCode (n : Nat) : Lamp :=
  match n with
  | 1 => .steady
  | 2 => .slowFlash
  | 3 => .fastFlash
  | _ => .off

/-- The code of a part state (Chapter 11). -/
def PartState.code : PartState → Nat
  | .setup => 0 | .service => 1 | .safeHold => 2

/-- The code of a line state (2.7.1). -/
def LineState.code : LineState → Nat
  | .idle => 0 | .running => 1 | .jammed => 2 | .isolated => 3

/-- The code of an exchange outcome in the detail of TEST STATION (R49). -/
def ExchangeOutcome.code : ExchangeOutcome → Nat
  | .good => 0 | .noReply => 1 | .truncated => 2 | .parity => 3 | .framing => 4 | .crc => 5 | .badHead => 6
  | .wrongAddress => 7 | .wrongLength => 8

/-- The code of a health value (3.8.1). -/
def Health.code : Health → Nat
  | .good => 0 | .doubtful => 1 | .lost => 2

/-- The code of a ramp state (5.13). -/
def RampState.code : RampState → Nat
  | .unknown => 0 | .stowed => 1 | .warning => 2 | .unlocking => 3 | .lowering => 4 | .landed => 5 | .raising => 6
  | .locking => 7 | .held => 8 | .faulted => 9

/-- The code of a hold or fault reason (5.13). -/
def Reason.code : Reason → Nat
  | .none => 0 | .start => 1 | .target => 2 | .deadman => 3 | .stop => 4 | .order => 5 | .silent => 6 | .tipLost => 7
  | .bridgeLost => 8 | .cover => 9 | .switches => 10 | .stall => 16 | .wrongDirection => 17 | .noLanding => 18
  | .noStowLimit => 19 | .sensorRail => 20 | .pins => 21

/-- The code of a motion source (5.13). -/
def Source.code : Source → Nat
  | .none => 0 | .order => 1 | .panel => 2 | .closure => 3

/-- The code of a control (5.13). -/
def Control.code : Control → Nat
  | .bridge => 0 | .atPanel => 1

/-- The code of direction and mode (5.13). -/
def Movement.code : Movement → Nat
  | .none => 0 | .lowerLand => 1 | .lowerToAngle => 2 | .raise => 3

/-- The code of a pending request (5.13). -/
def PanelRequest.code : PanelRequest → Nat
  | .none => 0 | .lower => 1 | .raise => 2

/-- The code of a boundary state (6.2). -/
def BoundaryState.code : BoundaryState → Nat
  | .unknown => 0 | .opened => 1 | .prewarn => 2 | .closing => 3 | .reversing => 4 | .closed => 5 | .passage => 6
  | .blocked => 7 | .failed => 8

/-- The code of a demand (6.2). -/
def Demand.code : Demand → Nat
  | .none => 0 | .normal => 1 | .emergency => 2

/-- The code of a block cause (6.10.1). -/
def BlockCause.code : BlockCause → Nat
  | .none => 0 | .occupied => 1 | .rampStopped => 2 | .raiseRefused => 3

/-- The code of a fire state (1.8.1). -/
def FireState.code : FireState → Nat
  | .normal => 0 | .alert => 1 | .isSealed => 2

/-- The code of a record state (7.8.1). -/
def RecordState.code : RecordState → Nat
  | .free => 0 | .active => 1 | .ended => 2

/-- The code of a call outcome (7.8.1). -/
def CallOutcome.code : CallOutcome → Nat
  | .none => 0 | .pending => 1 | .done => 2 | .dropped => 3 | .fault => 4 | .noStation => 5 | .withdrawn => 6

/-- The code of a call source (7.8.1). -/
def CallSource.code : CallSource → Nat
  | .none => 0 | .order => 1 | .ramp => 2 | .fireNormal => 3 | .fireEmergency => 4

/-- The code of a hand (10.1). -/
def Hand.code : Hand → Nat
  | .empty => 0 | .posted => 1 | .taken => 2 | .done => 3

/-- The result code (10.4). -/
def Result.code : Result → Nat
  | .ok => 1 | .partly => 2 | .refusedKind => 3 | .refusedState => 4 | .refusedTarget => 5 | .refusedBusy => 6
  | .refusedInterlock => 7 | .refusedConfig => 8 | .tableFull => 9 | .stopped => 10 | .superseded => 11
  | .cancelled => 12 | .heldTimeout => 13 | .fault => 14 | .reset => 15

/-- The code of an attention kind (8.2). -/
def AttentionKind.code : AttentionKind → Nat
  | .stationSilent => 1 | .stationBack => 2 | .lineSwitch => 3 | .panelRequest => 4 | .panelStop => 5
  | .deadmanReleased => 6 | .rampFault => 7 | .floatDrift => 8 | .floatLimit => 9 | .tipLost => 10
  | .sensorRail => 11 | .doorObstructed => 12 | .doorFailed => 13 | .coverBlocked => 14 | .localPassage => 15
  | .callFault => 16 | .lineJammed => 17 | .lineErrors => 18

/-! ## Configuration records -/

/-- The kind that the station table gives an address, as the table stands (R49). -/
def tableKind (m : Memory) (addr : Nat) : StationKind := stationKindOf (byteAt m (stationBase addr))

/-- The configuration of a station as its record holds it (R37). -/
def stationConfig (m : Memory) (addr : Nat) : StationConfig :=
  { kind := tableKind m addr
    homeLine := lineOfCode (byteAt m (stationBase addr + 1))
    level := byteAt m (stationBase addr + 2)
    muteOnTake := byteAt m (stationBase addr + 3) == 1 }

/-- The configuration of a zone (R1). -/
structure ZoneConfig where
  deck        : Nat
  callStation : Nat
  adjacency   : List Nat
  ramp        : Nat
  linger      : Nat

/-- The zone configuration as its record holds it. -/
def zoneConfig (m : Memory) (z : Nat) : ZoneConfig :=
  let a := zoneBase z
  { deck := byteAt m a
    callStation := byteAt m (a + 1)
    adjacency := [byteAt m (a + 2), byteAt m (a + 3), byteAt m (a + 4), byteAt m (a + 5)]
    ramp := byteAt m (a + 6)
    linger := byteAt m (a + 7) }

/-- A zone is in use when its deck field holds 1 or 2 (R1, R2). -/
def ZoneConfig.inUse (c : ZoneConfig) : Bool := c.deck == 1 || c.deck == 2

/-- The call station of a zone: a zone not in use has none (R1). -/
def zoneStation (m : Memory) (z : Nat) : Option Nat :=
  let c := zoneConfig m z
  if c.inUse && c.callStation != 0 then some c.callStation else none

/-- The configuration of a boundary (R98). -/
structure BoundaryConfig where
  kind          : Nat
  zoneX         : Nat
  zoneY         : Nat
  doorStation   : Nat
  ramp          : Nat
  prewarnNormal : Nat
  prewarnShort  : Nat
  closingLimit  : Nat
  passageHold   : Nat
  passageCap    : Nat

/-- The boundary configuration as its record holds it. -/
def boundaryConfig (m : Memory) (b : Nat) : BoundaryConfig :=
  let a := boundaryBase b
  { kind := byteAt m a
    zoneX := byteAt m (a + 1)
    zoneY := byteAt m (a + 2)
    doorStation := byteAt m (a + 3)
    ramp := byteAt m (a + 4)
    prewarnNormal := byteAt m (a + 5)
    prewarnShort := byteAt m (a + 6)
    closingLimit := byteAt m (a + 7)
    passageHold := byteAt m (a + 8)
    passageCap := byteAt m (a + 9) }

/-- The boundary is a DOOR. -/
def BoundaryConfig.isDoor (c : BoundaryConfig) : Bool := c.kind == 1

/-- The boundary is a COVER. -/
def BoundaryConfig.isCover (c : BoundaryConfig) : Bool := c.kind == 2

/-- A boundary is in use when its kind is DOOR or COVER (R98). -/
def BoundaryConfig.inUse (c : BoundaryConfig) : Bool := c.isDoor || c.isCover

/-- The configuration of a ramp (5.13). -/
structure RampConfig where
  station         : Nat
  panel           : Nat
  zone            : Nat
  secondZone      : Nat
  cover           : Nat
  answerMode      : Nat
  rawLow          : Nat
  rawHigh         : Nat
  angleLow        : Int
  angleHigh       : Int
  stowAngle       : Int
  landingEstimate : Int
  lowerLimit      : Int
  slowZone        : Nat
  creepZone       : Nat
  stopBand        : Nat
  stallWindow     : Nat
  trafficLimit    : Nat
  warnLimit       : Nat
  hardLimit       : Nat
  minProgress     : Nat
  motionPrewarn   : Nat
  pinsLimit       : Nat
  warningMessage  : Nat

/-- The ramp configuration as its record holds it. -/
def rampConfig (m : Memory) (u : Nat) : RampConfig :=
  let a := rampBase u
  { station := byteAt m a
    panel := byteAt m (a + 1)
    zone := byteAt m (a + 2)
    secondZone := byteAt m (a + 3)
    cover := byteAt m (a + 4)
    answerMode := byteAt m (a + 5)
    rawLow := wordAt m (a + 6)
    rawHigh := wordAt m (a + 8)
    angleLow := signedAt m (a + 10)
    angleHigh := signedAt m (a + 12)
    stowAngle := signedAt m (a + 14)
    landingEstimate := signedAt m (a + 16)
    lowerLimit := signedAt m (a + 18)
    slowZone := wordAt m (a + 20)
    creepZone := wordAt m (a + 22)
    stopBand := byteAt m (a + 24)
    stallWindow := byteAt m (a + 25)
    trafficLimit := wordAt m (a + 26)
    warnLimit := wordAt m (a + 28)
    hardLimit := wordAt m (a + 30)
    minProgress := byteAt m (a + 32)
    motionPrewarn := byteAt m (a + 33)
    pinsLimit := byteAt m (a + 34)
    warningMessage := byteAt m (a + 35) }

/-- A ramp is in use when its ramp station field holds an address from 1 to 48 (R69). -/
def RampConfig.inUse (c : RampConfig) : Bool := decide (1 ≤ c.station ∧ c.station ≤ 48)

/-- The cover boundary of a ramp in use, if it forms one. -/
def coverOf (m : Memory) (u : Nat) : Option Nat :=
  let c := rampConfig m u
  if c.inUse && decide (c.cover < 24) && (boundaryConfig m c.cover).isCover then some c.cover else none

/-- The catalogue entry of a message (R123): duration in units of 100 ms, lamp pattern, kind. -/
def catalogueEntry (m : Memory) (n : Nat) : CatalogueEntry :=
  let a := catalogueBase n
  { duration := wordAt m a, lamp := lampOfCode (byteAt m (a + 2)), tone := byteAt m (a + 3) == 1 }

/-! ## The header configuration (9.2) -/

/-- Heartbeat enable. -/
def heartbeatEnable (m : Memory) : Nat := byteAt m 0x0E

/-- Line bit rate code. -/
def lineRateCode (m : Memory) : Nat := byteAt m 0x0F

/-- Attention threshold; a value above 7 is read as 0 (R155). -/
def attentionThreshold (m : Memory) : Nat := if byteAt m 0x10 ≤ 7 then byteAt m 0x10 else 0

/-- The level of a line's cell (R146). -/
def lineCellLevel (m : Memory) : LineId → Nat
  | .a => byteAt m 0x11
  | .b => byteAt m 0x12

/-- The NORMAL and EMERGENCY fire warning messages. -/
def fireMessage (m : Memory) (emergency : Bool) : Nat := if emergency then byteAt m 0x15 else byteAt m 0x14

/-- The function of a status lamp: ST0 for 0, ST1 for 1 (R169). -/
def lampFunction (m : Memory) (lamp : Nat) : Nat := byteAt m (0x16 + lamp)

/-! ## The order slot (10.1) -/

/-- Kind code of a slot. -/
def slotKind (m : Memory) (s : Nat) : Nat := byteAt m (slotBase s + 2)

/-- QUIET flag of a slot. -/
def slotQuiet (m : Memory) (s : Nat) : Bool := (memRead m (slotBase s + 3)).getLsbD 0

/-- Tag of a slot. -/
def slotTag (m : Memory) (s : Nat) : Word := memReadWord m (slotBase s + 4)

/-- Target index of a slot. -/
def slotTarget (m : Memory) (s : Nat) : Nat := byteAt m (slotBase s + 6)

/-- Parameter byte of a slot, by its offset in the slot. -/
def slotByte (m : Memory) (s off : Nat) : Nat := byteAt m (slotBase s + off)

/-- Signed parameter word of a slot. -/
def slotAngle (m : Memory) (s off : Nat) : Int := signedAt m (slotBase s + off)

/-- Unsigned parameter word of a slot. -/
def slotWord (m : Memory) (s off : Nat) : Word := memReadWord m (slotBase s + off)

/-- The kind codes of the table of 10.1. -/
def knownKinds : List Nat := [1, 2, 3, 8, 9, 12, 16, 20, 21, 22, 23, 32, 33, 34, 35, 40, 41]

/-- Bit `z` of a zone mask. -/
def inMask (mask : Word) (z : Nat) : Bool := mask.getLsbD z

/-- The zones of a mask, in ascending order. -/
def zonesOf (mask : Word) : List Nat := (List.range 16).filter fun z => inMask mask z

/-- The mask of one zone; 255 names no zone. -/
def zoneBit (z : Nat) : Word := if z < 16 then BitVec.twoPow 16 z else 0

end Sys2Proof.Machine
end

