-- ==== Sys2Proof/Machine/Attention.lean ====
section
/-! DEFINITION. The attention unit (Chapter 8): levels, mutes, placing and coalescing, and takes. -/

namespace Sys2Proof.Machine

/-- The cell of a station address (R144). -/
def stationCell (addr : Nat) : Nat := stationIndex addr

/-- The cell of a line: 48 for A, 49 for B (R144). -/
def lineCell : LineId → Nat
  | .a => 48
  | .b => 49

/-- How the level of a kind is found (8.2). -/
inductive LevelClass where
  | fixed | base | line
  deriving DecidableEq, Repr

/-- The level class of a kind (8.2). STATION SILENT is fixed for RAMP, PANEL and DOOR stations and base for CALL
stations; a raise for a station of kind NONE cannot occur, and counts as base. -/
def levelClass (kind : AttentionKind) (station : StationKind) : LevelClass :=
  match kind with
  | .panelStop | .rampFault | .floatLimit | .tipLost | .sensorRail | .doorFailed | .coverBlocked => .fixed
  | .stationSilent =>
    match station with
    | .ramp | .panel | .door => .fixed
    | .call | .none => .base
  | .lineJammed | .lineErrors => .line
  | .stationBack | .lineSwitch | .panelRequest | .deadmanReleased | .floatDrift | .doorObstructed | .localPassage
  | .callFault => .base

/-- An attention placed on a cell: a CLEAR cell becomes FRESH with it, a FRESH cell coalesces it and keeps the more
severe of the two (R148). The rewrite of the cell (R145) is made at the end of the event. -/
def placeOn (kind : AttentionKind) (level : Nat) (detail : Word) (stamp : Stamp) (c : AttentionCell) : AttentionCell :=
  if c.fresh then
    let c := { c with repeats := satAdd 255 c.repeats, last := stamp, number := c.number + 1 }
    if level > c.level then { c with kind := some kind, level := level, detail := detail } else c
  else
    { c with fresh := true, kind := some kind, level := level, detail := detail, first := stamp, last := stamp,
             repeats := 1, number := c.number + 1 }

/-- An attention placed on cell `cell` (R148). -/
def placeAttention (e : Env) (cell : Nat) (kind : AttentionKind) (level : Nat) (detail : Word) (w : Work) : Work :=
  { w with cells := tmod w.cells cell (placeOn kind level detail e.now) }

/-- A raise on a station's cell: its level is resolved, a base raise of level 0 is discarded (R146), and a base raise for
a muted station is only counted (R147). -/
def raiseStation (e : Env) (addr : Nat) (kind : AttentionKind) (detail : Word) (w : Work) : Work :=
  let cfg := workingOf w.toDeck addr
  match levelClass kind cfg.kind with
  | .fixed => placeAttention e (stationCell addr) kind 7 detail w
  | .base =>
    if cfg.level = 0 then w
    else if (stationOf w.toDeck addr).muted then
      modStation addr (fun s => { s with mutedCount := satAdd 255 s.mutedCount }) w
    else placeAttention e (stationCell addr) kind cfg.level detail w
  | .line => w

/-- A raise on a line's cell, at the header's level for that cell; at level 0 it is discarded (R146). -/
def raiseLine (e : Env) (l : LineId) (kind : AttentionKind) (detail : Word) (w : Work) : Work :=
  let level := lineCellLevel e.ram l
  if level = 0 then w else placeAttention e (lineCell l) kind level detail w

/-- A detail of two bytes, low byte first. -/
def detailWord (low high : Nat) : Word := BitVec.ofNat 16 (low % 256 + 256 * (high % 256))

/-! ## The summary (R153, R154) -/

/-- The number of FRESH cells of a level. -/
def freshAt (cells : Vector AttentionCell 50) (level : Nat) : Nat :=
  ((List.range 50).filter fun c => (tget cells c).fresh && (tget cells c).level == level).length

/-- Of two FRESH cells the one of higher level, and of equal levels the one of higher number. `c` is above `best`. -/
def betterCell (cells : Vector AttentionCell 50) (best : Option Nat) (c : Nat) : Option Nat :=
  if (tget cells c).fresh then
    match best with
    | none => some c
    | some b => if (tget cells b).level ≤ (tget cells c).level then some c else some b
  else best

/-- The next cell: the FRESH cell of highest level and highest number among equals, or 255 (R153). -/
def nextCellOf (cells : Vector AttentionCell 50) : Nat :=
  ((List.range 50).foldl (betterCell cells) none).getD 255

/-- The ATTENTION flag: some FRESH cell reaches the threshold; a threshold of 0 gives none (R154). -/
def attentionOf (m : Memory) (cells : Vector AttentionCell 50) : Bool :=
  let t := attentionThreshold m
  t != 0 && (List.range 50).any fun c => (tget cells c).fresh && decide (t ≤ (tget cells c).level)

/-! ## Takes (R149 to R151) -/

/-- The take code of a hand word (R149). -/
def takeCode : Byte := 2

/-- A take that matches: the cell becomes CLEAR (R151), and a station with mute-on-take is muted when the part is in
SERVICE or SAFE-HOLD. -/
def takeCell (e : Env) (cell : Nat) (w : Work) : Work :=
  let w := { w with cells := tmod w.cells cell fun c => { c with fresh := false } }
  if cell < 48 && e.part != .setup && (workingOf w.toDeck (cell + 1)).muteOnTake then
    modStation (cell + 1) (fun s => { s with muted := true }) w
  else w

/-- UNMUTE STATION: the muted flag is cleared and the muted count becomes 0 (R152). -/
def unmuteStation (addr : Nat) (w : Work) : Work :=
  modStation addr (fun s => { s with muted := false, mutedCount := 0 }) w

end Sys2Proof.Machine
end

