-- ==== Sys2Proof/Machine/Zones.lean ====
section
/-! DEFINITION. The zone unit (Chapter 1): the views, the derivation of the fire state and the flags, and the rewriting of
the zone status. -/

namespace Sys2Proof.Machine

/-- The zone status with its fields changed by `f`: a rewrite, which moves the edition on by two, exactly when a published
field changes (R9). -/
def rewriteZone (f : Zone → Zone) (old : Zone) : Zone :=
  let new := { f old with edition := old.edition }
  if new = old then old else { new with edition := old.edition + 2 }

/-- A report acted on in zone `z`, with its rewrite. -/
def modZone (z : Nat) (f : Zone → Zone) (w : Work) : Work :=
  { w with zones := tmod w.zones z (rewriteZone f) }

/-- The zones in use, in ascending order. -/
def zonesInUse (m : Memory) : List Nat := (List.range 16).filter fun z => (zoneConfig m z).inUse

/-- Adjacency entry `k` names a boundary for which `p` holds in the view; an entry of 255 holds nothing (R4). -/
def entryHolds (view : Vector BoundaryView 24) (p : BoundaryView → Bool) (entry : Nat) : Bool :=
  entry != 255 && p (tget view entry)

/-- The view shows the boundary CLOSED. -/
def viewClosed (v : BoundaryView) : Bool := v.state == .closed

/-- The view shows a demand. -/
def viewDemanded (v : BoundaryView) : Bool := v.demand != .none

/-- The eight adjacent flags: closed flags in bits 0 to 3, demand flags in bits 4 to 7 (R6, 1.8.1). -/
def adjacentFlags (view : Vector BoundaryView 24) (adjacency : List Nat) : Byte :=
  BitVec.ofNat 8 <|
    ((List.range 4).map fun k =>
      bitOf (entryHolds view viewClosed (adjacency.getD k 255)) (2 ^ k) +
      bitOf (entryHolds view viewDemanded (adjacency.getD k 255)) (2 ^ (k + 4))).sum

/-- The number of the zone's boundaries that have a demand (R6). -/
def demandCountOf (view : Vector BoundaryView 24) (adjacency : List Nat) : Nat :=
  (adjacency.filter fun entry => entryHolds view viewDemanded entry).length

/-- The fire state: SEALED when the zone has a boundary and all are CLOSED, else ALERT when one has a demand (R6). -/
def fireStateOf (view : Vector BoundaryView 24) (adjacency : List Nat) : FireState :=
  let named := adjacency.filter fun entry => entry != 255
  if named ≠ [] ∧ named.all (fun entry => viewClosed (tget view entry)) then .isSealed
  else if named.any fun entry => viewDemanded (tget view entry) then .alert
  else .normal

/-- The zone status derived from the boundary view (R6). -/
def deriveZone (view : Vector BoundaryView 24) (adjacency : List Nat) (z : Zone) : Zone :=
  { z with fire := fireStateOf view adjacency, demandCount := demandCountOf view adjacency,
           adjacent := adjacentFlags view adjacency }

/-- A boundary report (R5): the view entry takes the reported state and demand, and every zone in use that lists the
boundary is derived again. -/
def boundaryReport (e : Env) (b : Nat) (state : BoundaryState) (demand : Demand) (w : Work) : Work :=
  let w := { w with boundaryView := tput w.boundaryView b ⟨state, demand⟩ }
  each ((zonesInUse e.ram).filter fun z => (zoneConfig e.ram z).adjacency.contains b)
    (fun z w => modZone z (deriveZone w.boundaryView (zoneConfig e.ram z).adjacency) w) w

/-- A ramp report (R7): the view takes the state, and the ramp-open flag of every zone in use that names the ramp is set
for any state other than STOWED. -/
def rampReport (e : Env) (u : Nat) (state : RampState) (w : Work) : Work :=
  let w := { w with rampView := tput w.rampView u state }
  each ((zonesInUse e.ram).filter fun z => (zoneConfig e.ram z).ramp == u)
    (fun z w => modZone z (fun x => { x with rampOpen := state != .stowed }) w) w

/-- A call report (R8): the playing record and issue, the queue length, and the end of a play when one ended. -/
def callReport (z : Nat) (record : Nat) (issue : Byte) (length : Nat) (ended : Option Stamp) (w : Work) : Work :=
  modZone z (fun x => { x with playRecord := record, playIssue := issue, queueLength := length,
                               playEnd := ended.getD x.playEnd }) w

/-- The status of the table of R10: a zone in use that names a ramp reads ramp-open set. -/
def startZone (rampOpen : Bool) (z : Zone) : Zone :=
  { z with fire := .normal, demandCount := 0, adjacent := 0, rampOpen := rampOpen, playRecord := 255, playIssue := 0,
           queueLength := 0 }

/-- The views and the status at a transition of the part (R10 to R12): every view entry becomes UNKNOWN and NONE, each zone
takes the values of R10, and `stamp` gives its last play end stamp. -/
def zoneTransition (e : Env) (names : Nat → Bool) (stamp : Zone → Stamp) (w : Work) : Work :=
  let w := { w with boundaryView := Vector.replicate 24 {}, rampView := Vector.replicate 4 .unknown }
  each (List.range 16)
    (fun z w => modZone z
      (fun x => { startZone ((zoneConfig e.ram z).inUse && names (zoneConfig e.ram z).ramp) x with playEnd := stamp x }) w) w

/-- START SERVICE succeeds (R10): the last play end stamps are kept. -/
def zonesStart (e : Env) (w : Work) : Work :=
  zoneTransition e (fun r => r != 255) (fun x => x.playEnd) w

/-- ENTER SETUP (R11): a zone that was playing has its play ended by the withdrawal of all calls. -/
def zonesEnterSetup (e : Env) (w : Work) : Work :=
  zoneTransition e (fun r => r != 255) (fun x => if x.playRecord = 255 then x.playEnd else e.now) w

/-- Bridge reset (R12): the configuration is read as it stands, and every last play end stamp becomes 0. -/
def zonesBridgeReset (e : Env) (w : Work) : Work :=
  zoneTransition e (fun r => decide (r ≤ 3)) (fun _ => 0) w

end Sys2Proof.Machine
end

