-- ==== Sys2Proof/Machine/Calls.lean ====
section
/-! DEFINITION. The call unit (Chapter 7): call records, zone queues, plays and call lamps. -/

namespace Sys2Proof.Machine

/-- The zone that a CALL station serves (R1, R37). -/
def zoneOfStation (m : Memory) (addr : Nat) : Option Nat :=
  (List.range 16).find? fun z => zoneStation m z == some addr

/-! ## Outputs of a call station (R17, R137, R142) -/

/-- The outputs that a call station's record holds. -/
def callOutputOf (d : Deck) (addr : Nat) : CallOutput :=
  match outputOf d addr with
  | .call o => o
  | _ => {}

/-- The output record of a zone's call station changed by `f`; a zone without a call station has none. -/
def modCallOutput (e : Env) (z : Nat) (f : CallOutput → CallOutput) (w : Work) : Work :=
  match zoneStation e.ram z with
  | some addr => setOutput addr (.call (f (callOutputOf w.toDeck addr))) w
  | none => w

/-- The message of a record. -/
def messageOf (d : Deck) (record : Nat) : Nat := (tget d.records record).message

/-- The working catalogue's entry of a record's message (R123). -/
def entryOf (d : Deck) (record : Nat) : CatalogueEntry := tget d.catalogue (messageOf d record)

/-- The lamp pattern of the head of a zone's queue, or OFF for an empty queue (R142). -/
def headLamp (d : Deck) (z : Nat) : Lamp :=
  match (tget d.zoneCalls z).queue with
  | [] => .off
  | q :: _ => (entryOf d q.record).lamp

/-- The playing entry of a zone: the head of its queue, except in IDLE and HOLD (R133, R141). -/
def playingRecord (zc : ZoneCalls) : Option Nat :=
  match zc.play with
  | .waiting | .playing | .pause => zc.queue.head?.map fun q => q.record
  | .idle | .hold => none

/-! ## Plays (R137) -/

/-- The next play token: 15 is followed by 1 (R137). -/
def nextToken (t : Nat) : Nat := if t < 15 then t + 1 else 1

/-- A play in progress is ended or abandoned and the pause is cancelled; the end of a play is noted for the zone's call
report (R135, R8). -/
def endPlay (z : Nat) (w : Work) : Work :=
  let playing := (tget w.zoneCalls z).play == .playing
  let w := modZoneCalls z (fun zc => { zc with timeout := none, pauseEnd := none }) w
  if playing then { w with playEnded := w.playEnded ++ [z] } else w

/-- The head of the queue enters PLAYING (R137). -/
def startPlay (e : Env) (z : Nat) (w : Work) : Work :=
  match (tget w.zoneCalls z).queue with
  | [] => w
  | q :: _ =>
    let c := entryOf w.toDeck q.record
    let token := nextToken (tget w.zoneCalls z).token
    let message := messageOf w.toDeck q.record
    modCallOutput e z (fun o => { o with message := message, token := token, lamp := c.lamp, stop := false })
      (modZoneCalls z
        (fun zc => { zc with play := .playing, token := token, startCount := zc.lastCount, lingerEnd := none,
                             timeout := some (after e.now (c.duration * 100 + 2000)), pauseEnd := none }) w)

/-- The head of the queue waits for the station's values (R137): message 0, the stop bit set, its lamp pattern. -/
def waitPlay (e : Env) (z : Nat) (w : Work) : Work :=
  let w := modZoneCalls z (fun zc => { zc with play := .waiting, lingerEnd := none }) w
  modCallOutput e z (fun o => { o with message := 0, stop := true, lamp := headLamp w.toDeck z }) w

/-- The zone becomes IDLE and its lamp lingers (R142). -/
def idlePlay (e : Env) (z : Nat) (w : Work) : Work :=
  let linger := (zoneConfig e.ram z).linger
  modCallOutput e z
    (fun o => { o with message := 0, stop := true, lamp := if linger = 0 then .off else o.lamp })
    (modZoneCalls z
      (fun zc => { zc with play := .idle,
                           lingerEnd := if linger = 0 then none else some (after e.now (linger * 1000)) }) w)

/-- The head of the queue becomes the playing entry (R135): its play starts, or waits for the station; an empty queue
leaves the zone IDLE. -/
def playHead (e : Env) (z : Nat) (w : Work) : Work :=
  match (tget w.zoneCalls z).queue with
  | [] => idlePlay e z w
  | _ :: _ => if (tget w.zoneCalls z).known then startPlay e z w else waitPlay e z w

/-- The lamp of a zone in HOLD follows its queue (R142). -/
def holdLamp (e : Env) (z : Nat) (w : Work) : Work :=
  modCallOutput e z (fun o => { o with lamp := headLamp w.toDeck z }) w

/-! ## Queues (R133 to R135) -/

/-- An entry placed after every entry of equal or higher priority (R133). -/
def insertEntry (x : QueueEntry) (q : List QueueEntry) : List QueueEntry :=
  (q.takeWhile fun y => decide (x.priority ≤ y.priority)) ++
    x :: (q.dropWhile fun y => decide (x.priority ≤ y.priority))

/-- A call's progress in a zone changed by `f` (R125). -/
def modProgress (r z : Nat) (f : Progress → Progress) (w : Work) : Work :=
  modRecord r (fun rec => { rec with progress := tmod rec.progress z f }) w

/-- A call's outcome in a zone. -/
def setOutcome (r z : Nat) (o : CallOutcome) (w : Work) : Work :=
  modProgress r z (fun p => { p with outcome := o }) w

/-- What the zone's play does when its queue takes the new form `q`: nothing when the head stays, and otherwise the play in
progress is abandoned and the new head becomes the playing entry (R135). In HOLD nothing plays. -/
def withQueue (e : Env) (z : Nat) (q : List QueueEntry) (w : Work) : Work :=
  let zc := tget w.zoneCalls z
  let headKept := zc.queue.head?.map (fun x => x.record) == q.head?.map (fun x => x.record)
  let w := modZoneCalls z (fun zc => { zc with queue := q }) w
  if zc.play = .hold then holdLamp e z w
  else if headKept then w
  else playHead e z (endPlay z w)

/-- An entry leaves its queue (R135). -/
def leaveQueue (e : Env) (z r : Nat) (w : Work) : Work :=
  let q := (tget w.zoneCalls z).queue
  if q.any fun x => x.record == r then withQueue e z (q.filter fun x => x.record != r) w else w

/-- A call's outcome in a zone is decided and its entry leaves the queue (R135). -/
def finishEntry (e : Env) (z r : Nat) (o : CallOutcome) (w : Work) : Work :=
  leaveQueue e z r (setOutcome r z o w)

/-- A call enters a zone's queue (R133); at eight entries the last one is displaced by a strictly higher priority, and
otherwise the new call is dropped (R134). -/
def enterQueue (e : Env) (z r priority : Nat) (w : Work) : Work :=
  let q := (tget w.zoneCalls z).queue
  if q.any fun x => x.record == r then w
  else if q.length < 8 then withQueue e z (insertEntry ⟨r, priority⟩ q) w
  else
    match q.getLast? with
    | some last =>
      if last.priority < priority then
        withQueue e z (insertEntry ⟨r, priority⟩ q.dropLast) (setOutcome last.record z .dropped w)
      else setOutcome r z .dropped w
    | none => w

/-- A zone of a call's set (step 6 of R127): NO STATION without a call station, and otherwise PENDING with plays heard 0
and an entry in the queue. -/
def placeZone (e : Env) (r z : Nat) (w : Work) : Work :=
  match zoneStation e.ram z with
  | none => modProgress r z (fun p => { p with outcome := .noStation }) w
  | some _ =>
    enterQueue e z r (tget w.records r).priority (modProgress r z (fun _ => ⟨0, .pending⟩) w)

/-- A PENDING zone is withdrawn (R129 to R131). -/
def withdrawZone (e : Env) (r z : Nat) (w : Work) : Work :=
  if (tget (tget w.records r).progress z).outcome = .pending then finishEntry e z r .withdrawn w else w

/-- Every PENDING zone of a record is withdrawn. -/
def withdrawAll (e : Env) (r : Nat) (w : Work) : Work :=
  each (List.range 16) (fun z w => withdrawZone e r z w) w

/-! ## Records (R125, R127 to R131) -/

/-- A FREE record becomes ACTIVE with the values of a new call (R125). -/
def activate (e : Env) (r : Nat) (message priority repeats : Nat) (source : CallSource) (index : Nat) (tag zoneSet : Word)
    (w : Work) : Work :=
  modRecord r (fun rec =>
    { rec with state := .active, issue := rec.issue + 1, message := message, priority := priority, repeats := repeats,
               source := source, sourceIndex := index, tag := tag, zoneSet := zoneSet,
               progress := Vector.replicate 16 {}, startStamp := e.now }) w

/-- A record becomes ENDED and, in the same event, FREE (R125, R128, R130, R131). -/
def endRecord (e : Env) (r : Nat) (w : Work) : Work :=
  modRecord r (fun rec => { rec with state := .free, endStamp := e.now }) w

/-- The mask of a record's zones that have an outcome. -/
def outcomeMask (rec : CallRecord) (o : CallOutcome) : Word :=
  (List.range 16).foldl
    (fun m z => if inMask rec.zoneSet z && (tget rec.progress z).outcome == o then m ||| BitVec.twoPow 16 z else m) 0

/-- The result detail of a CALL order (R128). -/
def callDetail (r : Nat) (rec : CallRecord) : List Byte :=
  [byteOf r, rec.issue] ++ wordBytes (outcomeMask rec .done) ++ wordBytes (outcomeMask rec .dropped) ++
    wordBytes (outcomeMask rec .fault) ++ wordBytes (outcomeMask rec .noStation) ++
    wordBytes (outcomeMask rec .withdrawn)

/-- The result of a bridge call whose zones are all decided: OK when every zone is DONE, and PARTIAL otherwise (R128). -/
def callResult (rec : CallRecord) : Result :=
  if outcomeMask rec .done = rec.zoneSet then .ok else .partly

/-- A bridge record ends with a result: its CALL order completes and the record becomes FREE (R128). -/
def endBridge (e : Env) (r : Nat) (result : Result) (w : Work) : Work :=
  let x := tget w.records r
  complete x.sourceIndex result (callDetail r x) (endRecord e r w)

/-- A bridge record that is ACTIVE with no PENDING zone ends (R125). -/
def settleRecord (e : Env) (r : Nat) (w : Work) : Work :=
  let x := tget w.records r
  if x.state = .active ∧ outcomeMask x .pending = 0 then endBridge e r (callResult x) w else w

/-- Every bridge record is settled. -/
def settleRecords (e : Env) (w : Work) : Work :=
  each (List.range 26) (fun r w => settleRecord e r w) w

/-- The lowest-numbered FREE bridge record (R125). -/
def freeRecord (d : Deck) : Option Nat := (List.range 26).find? fun r => (tget d.records r).state == .free

/-- CALL at the call unit (R127): slot bytes 8 message, 9 priority, 10 repeats, 12 and 13 zone mask (10.1). -/
def placeCall (e : Env) (slot : Nat) (message priority repeats : Nat) (zones : Word) (w : Work) : Work :=
  if zones = 0 then complete slot .refusedTarget [1] w
  else if message = 0 ∨ 63 < message ∨ (tget w.catalogue message).duration = 0 then complete slot .refusedTarget [2] w
  else
    match freeRecord w.toDeck with
    | none => complete slot .tableFull [] w
    | some r =>
      let priority := max 1 (min 5 priority)
      let w := activate e r message priority (min 15 repeats) .order slot (slotTag e.ram slot) zones w
      each (zonesOf zones) (fun z w => placeZone e r z w) w

/-- CANCEL CALL at the call unit (R129). -/
def cancelRecord (e : Env) (slot r : Nat) (issue : Byte) (w : Work) : Work :=
  if (tget w.records r).state = .active ∧ (tget w.records r).issue = issue then
    complete slot .ok [] (endBridge e r .cancelled (withdrawAll e r w))
  else complete slot .refusedTarget [] w

/-- The record of a ramp's warning (R125). -/
def rampRecord (u : Nat) : Nat := 26 + u

/-- The ramp channel asks for the start of its warning record (R130). -/
def startWarning (e : Env) (u : Nat) (w : Work) : Work :=
  let r := rampRecord u
  let c := rampConfig e.ram u
  if (tget w.records r).state = .active then w
  else
    let w := activate e r c.warningMessage 6 0 .ramp u 0 (zoneBit c.zone ||| zoneBit c.secondZone) w
    each ([c.zone, c.secondZone].filter fun z => decide (z < 16)) (fun z w => placeZone e r z w) w

/-- The ramp channel asks for the end of its warning record (R130). -/
def endWarning (e : Env) (u : Nat) (w : Work) : Work :=
  let r := rampRecord u
  if (tget w.records r).state = .active then endRecord e r (withdrawAll e r w) else w

/-- A zone leaves the set of a fire warning (R131). -/
def leaveFire (e : Env) (r z : Nat) (w : Work) : Work :=
  let w := withdrawZone e r z w
  modRecord r (fun rec => { rec with zoneSet := rec.zoneSet &&& ~~~ BitVec.twoPow 16 z }) w

/-- A zone joins the set of a fire warning (R131). -/
def joinFire (e : Env) (emergency : Bool) (r z : Nat) (w : Work) : Work :=
  let w :=
    if (tget w.records r).state = .active then w
    else activate e r (fireMessage e.ram emergency) (if emergency then 7 else 6) 0
           (if emergency then .fireEmergency else .fireNormal) 255 0 0 w
  placeZone e r z (modRecord r (fun rec => { rec with zoneSet := rec.zoneSet ||| BitVec.twoPow 16 z }) w)

/-- A fire warning record whose zone set is empty after a handover ends (R131). -/
def settleFire (e : Env) (r : Nat) (w : Work) : Work :=
  if (tget w.records r).state = .active ∧ (tget w.records r).zoneSet = 0 then endRecord e r w else w

/-- A handover of the boundary unit (R121, R131): all the leaves first, then all the joins. -/
def fireHandover (e : Env) (leftNormal leftEmergency joinedNormal joinedEmergency : Word) (w : Work) : Work :=
  let w := each (zonesOf leftNormal) (fun z w => leaveFire e 30 z w) w
  let w := each (zonesOf leftEmergency) (fun z w => leaveFire e 31 z w) w
  let w := each (zonesOf joinedNormal) (fun z w => joinFire e false 30 z w) w
  let w := each (zonesOf joinedEmergency) (fun z w => joinFire e true 31 z w) w
  settleFire e 31 (settleFire e 30 w)

/-! ## Reports and timers (R138 to R142) -/

/-- The ramp in use whose first zone is `z` and whose warning is record `r`. -/
def heardRamp (m : Memory) (z r : Nat) : Option Nat :=
  (List.range 4).find? fun u => (rampConfig m u).inUse && (rampConfig m u).zone == z && r == rampRecord u

/-- The play in progress was heard (R138). -/
def playHeard (e : Env) (z : Nat) (w : Work) : Work :=
  match (tget w.zoneCalls z).queue with
  | [] => w
  | q :: _ =>
    let r := q.record
    let w := modProgress r z (fun p => { p with heard := satAdd 15 p.heard }) (endPlay z w)
    let w :=
      match heardRamp e.ram z r with
      | some u => { w with notices := w.notices ++ [Notice.heard u] }
      | none => w
    let x := tget w.records r
    if x.repeats ≠ 0 ∧ x.repeats ≤ (tget x.progress z).heard then finishEntry e z r .done w
    else if (entryOf w.toDeck r).tone then startPlay e z w
    else modZoneCalls z (fun zc => { zc with play := .pause, pauseEnd := some (after e.now 1000) }) w

/-- The values of a report of the zone's call station (R137, R138): the completion count and the playing message id. -/
def callValues (e : Env) (z id count : Nat) (w : Work) : Work :=
  let w := modZoneCalls z (fun zc => { zc with lastCount := count, lastId := id, known := true }) w
  let zc := tget w.zoneCalls z
  match zc.play with
  | .waiting => startPlay e z w
  | .playing =>
    match zc.queue with
    | q :: _ =>
      if count ≠ zc.startCount ∧ id = messageOf w.toDeck q.record then playHeard e z w else w
    | [] => w
  | .idle | .pause | .hold => w

/-- CALL FAULT (R139, R140): the record in the low byte, the cause in the high byte. -/
def raiseCallFault (e : Env) (addr record cause : Nat) (w : Work) : Work :=
  raiseStation e addr .callFault (detailWord record cause) w

/-- The play in progress ends as a fault with a cause (R139, R140). -/
def playFault (e : Env) (z addr cause : Nat) (w : Work) : Work :=
  match (tget w.zoneCalls z).queue with
  | q :: _ => raiseCallFault e addr q.record cause (finishEntry e z q.record .fault w)
  | [] => w

/-- AMPLIFIER FAULT is confirmed set (R140). -/
def amplifierFault (e : Env) (z addr : Nat) (w : Work) : Work :=
  if (tget w.zoneCalls z).play = .playing then playFault e z addr 2 w
  else raiseCallFault e addr 255 2 w

/-- A report of the station unit for a CALL station (R46): its values first, and then AMPLIFIER FAULT (input 0). -/
def callStationReport (e : Env) (addr : Nat) (r : StationReport) (w : Work) : Work :=
  match zoneOfStation e.ram addr with
  | none => w
  | some z =>
    let w := callValues e z r.first r.second w
    if r.confirmsSet 0 then amplifierFault e z addr w else w

/-- The ramps whose first zone is `z` and whose warning record is ACTIVE (R132). -/
def silencedRamps (e : Env) (z : Nat) (d : Deck) : List Nat :=
  (List.range 4).filter fun u =>
    (rampConfig e.ram u).inUse && (rampConfig e.ram u).zone == z && (tget d.records (rampRecord u)).state == .active

/-- The station unit reports a CALL station SILENT: its zone enters HOLD (R141). -/
def callStationSilent (e : Env) (addr : Nat) (w : Work) : Work :=
  match zoneOfStation e.ram addr with
  | none => w
  | some z =>
    let w := endPlay z w
    let w := modZoneCalls z (fun zc => { zc with play := .hold, known := false, lingerEnd := none }) w
    let w := modCallOutput e z (fun o => { o with message := 0, stop := true, lamp := headLamp w.toDeck z }) w
    { w with notices := w.notices ++ (silencedRamps e z w.toDeck).map Notice.silent }

/-- The station unit reports a CALL station back: its zone leaves HOLD (R141). With an empty queue it becomes IDLE without a
linger, since its lamp is OFF already (R142, log entry 43). -/
def callStationBack (e : Env) (addr : Nat) (w : Work) : Work :=
  match zoneOfStation e.ram addr with
  | none => w
  | some z =>
    if (tget w.zoneCalls z).play ≠ .hold then w
    else if (tget w.zoneCalls z).queue.isEmpty then modZoneCalls z (fun zc => { zc with play := .idle }) w
    else waitPlay e z w

/-- The play timeout of a zone in PLAYING runs out (R139). -/
def playTimeoutEnds (e : Env) (z : Nat) (w : Work) : Work :=
  match zoneStation e.ram z with
  | some addr => playFault e z addr 1 w
  | none => w

/-- The pause of a zone ends, and the next play starts (R138). -/
def pauseEnds (e : Env) (z : Nat) (w : Work) : Work := startPlay e z w

/-- The lamp linger of a zone ends: the pattern becomes OFF (R142). -/
def lingerEnds (e : Env) (z : Nat) (w : Work) : Work :=
  modCallOutput e z (fun o => { o with lamp := .off })
    (modZoneCalls z (fun zc => { zc with lingerEnd := none }) w)

/-! ## Transitions (R143) -/

/-- An ACTIVE record is ended at a transition (R143): its PENDING zones become WITHDRAWN, it becomes FREE, and its other fields are
kept, the zone set of records 30 and 31 among them, which the handover of an emptied set would clear (R121, R131, log entry
48). -/
def closeRecord (now : Stamp) (rec : CallRecord) : CallRecord :=
  if rec.state = .free then rec
  else { rec with state := .free, endStamp := now,
                  progress := rec.progress.map fun p => if p.outcome = .pending then { p with outcome := .withdrawn } else p }

/-- The zone calls at START SERVICE and at a bridge reset. -/
def callsCleared (w : Work) : Work := { w with zoneCalls := Vector.replicate 16 {} }

/-- START SERVICE succeeds (R143): the working catalogue is copied, and the records are FREE. -/
def callsStart (e : Env) (w : Work) : Work :=
  { callsCleared w with catalogue := tabulate 64 (catalogueEntry e.ram),
                        records := w.records.map fun rec => { rec with state := .free } }

/-- ENTER SETUP (R143): every ACTIVE record is ended, and the play tokens are kept. -/
def callsEnterSetup (e : Env) (w : Work) : Work :=
  { w with zoneCalls := w.zoneCalls.map fun zc => { token := zc.token }, records := w.records.map (closeRecord e.now) }

/-- Bridge reset (R143): every ACTIVE record is ended, and the play tokens become 0. -/
def callsBridgeReset (e : Env) (w : Work) : Work :=
  { callsCleared w with records := w.records.map (closeRecord e.now) }

end Sys2Proof.Machine
end

