-- ==== Sys2Proof/Machine/Boundaries.lean ====
section
/-! DEFINITION. The boundary unit (Chapter 6): demands, waiting lists, doors, and the states that a cover takes from its
ramp. Drive, beacon, stamp and reports of a boundary follow at the end of the event. -/

namespace Sys2Proof.Machine

/-! ## Orders at a boundary (R104, R105, R120) -/

/-- The detail of a completed CLOSE BOUNDARY (R104). -/
def boundaryDetail (x : Boundary) : List Byte :=
  [byteOf x.state.code, byteOf x.demand.code, byteOf x.obstructions]

/-- The detail of a completed CLOSE ZONE (R120). -/
def zoneDetail (o : ZoneOrder) : List Byte := stampBytes o.closedMask ++ stampBytes o.failedMask

/-- The mask bit of boundary `b`. -/
def boundaryBit (b : Nat) : BitVec 32 := BitVec.twoPow 32 b

/-- What the boundary unit keeps for the CLOSE ZONE order of a slot changed by `f`. -/
def modZoneOrder (slot : Nat) (f : ZoneOrder → ZoneOrder) (w : Work) : Work :=
  { w with zoneOrders := tmod w.zoneOrders slot f }

/-- An order that boundary `b` arrives or fails for: a CLOSE BOUNDARY completes OK or FAULT, and a CLOSE ZONE takes the
bit in its closed or failed mask (R105, R107, R120). -/
def settleSlot (b : Nat) (arrived : Bool) (slot : Nat) (w : Work) : Work :=
  if (tget w.zoneOrders slot).inHand then
    modZoneOrder slot
      (fun o => if arrived then { o with closedMask := o.closedMask ||| boundaryBit b }
                else { o with failedMask := o.failedMask ||| boundaryBit b }) w
  else complete slot (if arrived then .ok else .fault) (boundaryDetail (tget w.boundaries b)) w

/-- Every waiting order of a boundary is settled, and the list is emptied. -/
def settleWaiting (b : Nat) (arrived : Bool) (w : Work) : Work :=
  modBoundary b (fun x => { x with waiting := [] })
    (each (tget w.boundaries b).waiting (fun slot w => settleSlot b arrived slot w) w)

/-- A waiting order of a released boundary (R111, R120): a CLOSE BOUNDARY completes CANCELLED, and a CLOSE ZONE completes
CANCELLED and leaves every waiting list. -/
def cancelSlot (b slot : Nat) (w : Work) : Work :=
  if (tget w.zoneOrders slot).inHand then
    let o := tget w.zoneOrders slot
    complete slot .cancelled (zoneDetail o)
      (modZoneOrder slot (fun _ => {})
        { w with boundaries := w.boundaries.map fun x => { x with waiting := x.waiting.filter fun s => s != slot } })
  else complete slot .cancelled (boundaryDetail (tget w.boundaries b)) w

/-! ## States (6.2) -/

/-- A boundary with every timer stopped. -/
def noTimers (x : Boundary) : Boundary :=
  { x with prewarnEnd := none, closingStart := none, holdEnd := none, capEnd := none, reversalEnd := none }

/-- A boundary enters a state: the timers of other states stop (R105, R107, R109, R110, R113), the opening mark falls
except in OPEN and CLOSED (R100), and the block cause is that of a BLOCKED cover only (R101). -/
def enterBoundary (b : Nat) (st : BoundaryState) (w : Work) : Work :=
  modBoundary b
    (fun x => { noTimers x with state := st, openingMark := x.openingMark && (st == .opened || st == .closed),
                                blockCause := .none, blockDetail := 0 }) w

/-- The prewarn of a demand, in seconds (R104). -/
def prewarnSeconds (c : BoundaryConfig) : Demand → Nat
  | .emergency => c.prewarnShort
  | .normal | .none => c.prewarnNormal

/-- A boundary enters PREWARN with the prewarn of its demand (R104, R114, R115). -/
def enterPrewarn (e : Env) (b : Nat) (w : Work) : Work :=
  let c := boundaryConfig e.ram b
  modBoundary b (fun x => { x with prewarnEnd := some (after e.now (prewarnSeconds c x.demand * 1000)) })
    (enterBoundary b .prewarn w)

/-- A door enters CLOSING and its closing timer starts (R105, R107). -/
def enterClosing (e : Env) (b : Nat) (w : Work) : Work :=
  modBoundary b (fun x => { x with closingStart := some e.now }) (enterBoundary b .closing w)

/-- The arrival of a boundary with a demand (R105, R114): it enters CLOSED, its waiting orders are settled, and the
obstruction count returns to 0. -/
def arrive (b : Nat) (w : Work) : Work :=
  modBoundary b (fun x => { x with obstructions := 0 }) (settleWaiting b true (enterBoundary b .closed w))

/-- A closure fails (R107, R108, R114): the boundary enters FAILED and its waiting orders are settled. -/
def failClosure (b : Nat) (w : Work) : Work := settleWaiting b false (enterBoundary b .failed w)

/-- The urgency of a parameter byte (R104). -/
def urgencyOf (n : Nat) : Option Demand :=
  match n with
  | 0 => some .normal
  | 1 => some .emergency
  | _ => none

/-- A new demand (step 2 of R104). The opening mark is cleared (R100). -/
def newDemand (u : Demand) (x : Boundary) : Boundary :=
  { x with demand := u, obstructions := 0, openingMark := false }

/-- The earlier of a prewarn end and the end that the prewarn short gives (R106). -/
def cutPrewarn (now held : Stamp) (short : Nat) : Stamp :=
  if reached now held then held
  else if (held - now).toNat ≤ short * 1000 then held
  else after now (short * 1000)

/-- An EMERGENCY order escalates a NORMAL demand (R106). -/
def escalate (now : Stamp) (short : Nat) (x : Boundary) : Boundary :=
  { x with demand := .emergency, prewarnEnd := x.prewarnEnd.map fun held => cutPrewarn now held short }

/-- Whether an order of urgency `u` escalates the demand (R106). -/
def escalates (x : Boundary) (u : Demand) : Bool := x.demand == .normal && u == .emergency

/-- The demand that an order of urgency `u` leaves (step 2 of R104). -/
def demandTaken (e : Env) (b : Nat) (u : Demand) (x : Boundary) : Boundary :=
  if x.demand = .none then newDemand u x
  else if escalates x u then escalate e.now (boundaryConfig e.ram b).prewarnShort x
  else x

/-- A slot appended to the waiting list, which holds no slot twice. -/
def appendWaiting (slot : Nat) (x : Boundary) : Boundary :=
  if x.waiting.contains slot then x else { x with waiting := x.waiting ++ [slot] }

/-! ## Doors (R102 to R113) -/

/-- CLOSED END of a door is confirmed set. -/
def atClosedEnd (d : Deck) (c : BoundaryConfig) : Bool := inputSet d c.doorStation 1

/-- OPEN END of a door is confirmed set. -/
def atOpenEnd (d : Deck) (c : BoundaryConfig) : Bool := inputSet d c.doorStation 0

/-- Steps 2 to 5 of R104 for a door, with the escalation of R106. A prewarn that the escalation finds already due runs out
in the same event. -/
def closeDoor (e : Env) (b slot : Nat) (u : Demand) (w : Work) : Work :=
  let x := tget w.boundaries b
  let c := boundaryConfig e.ram b
  let w := modBoundary b (demandTaken e b u) w
  if x.state = .closed ∧ atClosedEnd w.toDeck c then settleSlot b true slot w
  else if x.state = .failed then settleSlot b false slot w
  else
    let w := modBoundary b (appendWaiting slot) w
    if x.demand = .none ∧ (x.state = .opened ∨ x.state = .closed) then enterPrewarn e b w
    else if escalates x u && x.state == .prewarn && timerDue e.now (tget w.boundaries b).prewarnEnd then enterClosing e b w
    else w

/-- An attention on the door station's cell. -/
def raiseDoor (e : Env) (b : Nat) (kind : AttentionKind) (detail : Nat) (w : Work) : Work :=
  raiseStation e (boundaryConfig e.ram b).doorStation kind (detailWord detail 0) w

/-- A door closure fails with the detail of DOOR FAILED: 1 closing limit, 2 obstructions (R107, R108). -/
def failDoor (e : Env) (b detail : Nat) (w : Work) : Work :=
  failClosure b (raiseDoor e b .doorFailed detail w)

/-- The prewarn of a door runs out (R105). -/
def doorPrewarnEnds (e : Env) (b : Nat) (w : Work) : Work := enterClosing e b w

/-- The closing timer of a door runs out (R107). -/
def closingLimitEnds (e : Env) (b : Nat) (w : Work) : Work := failDoor e b 1 w

/-- The reversal timer of a door runs out (R108). -/
def reversalEnds (e : Env) (b : Nat) (w : Work) : Work := enterClosing e b w

/-- The hold or cap timer of a passage runs out (R110). -/
def passageEnds (e : Env) (b : Nat) (w : Work) : Work := enterClosing e b w

/-- A door leaves UNKNOWN at its established set (R102). -/
def doorEstablished (e : Env) (b : Nat) (w : Work) : Work :=
  let x := tget w.boundaries b
  let closed := atClosedEnd w.toDeck (boundaryConfig e.ram b)
  if x.state ≠ .unknown then w
  else if x.demand = .none then enterBoundary b (if closed then .closed else .opened) w
  else if closed then arrive b w
  else enterClosing e b w

/-- OPEN END is confirmed set (R103, R100). -/
def doorOpenEnd (b : Nat) (w : Work) : Work :=
  let x := tget w.boundaries b
  if x.demand = .none ∧ (x.state = .closed ∨ x.state = .failed) then
    modBoundary b (fun x => { x with openingMark := false }) (enterBoundary b .opened w)
  else modBoundary b (fun x => { x with openingMark := false }) w

/-- CLOSED END is confirmed set (R103, R105). -/
def doorClosedEnd (b : Nat) (w : Work) : Work :=
  let x := tget w.boundaries b
  if x.demand = .none then
    if (x.state = .opened ∧ ¬ x.openingMark) ∨ x.state = .failed then enterBoundary b .closed w else w
  else
    match x.state with
    | .prewarn | .closing | .reversing | .passage => arrive b w
    | .unknown | .opened | .closed | .blocked | .failed => w

/-- CLOSED END is confirmed clear without a push: a closed door with a demand has been moved off its end (R105). -/
def doorOffEnd (e : Env) (b : Nat) (w : Work) : Work :=
  let x := tget w.boundaries b
  if x.state = .closed ∧ x.demand ≠ .none then enterClosing e b w else w

/-- EDGE is confirmed set (R108). A door that is CLOSING with a count of 3, which a failed closure left and a station loss
carried into UNKNOWN, keeps the count at 3, the end of its range (R101, 0.6.4), and fails again with detail 2 (log entry 46). -/
def doorEdge (e : Env) (b : Nat) (w : Work) : Work :=
  if (tget w.boundaries b).state ≠ .closing then w
  else
    let w := modBoundary b (fun x => { x with obstructions := satAdd 3 x.obstructions }) w
    let count := (tget w.boundaries b).obstructions
    if count < 3 then
      raiseDoor e b .doorObstructed count
        (modBoundary b (fun x => { x with reversalEnd := some (after e.now 2000) }) (enterBoundary b .reversing w))
    else failDoor e b 2 w

/-- A push on one or both faces (R109): 1 for X, 2 for Y, 3 for both. -/
def doorPush (e : Env) (b face : Nat) (w : Work) : Work :=
  let x := tget w.boundaries b
  let c := boundaryConfig e.ram b
  let hold := some (after e.now (c.passageHold * 1000))
  let passage : Work :=
    raiseDoor e b .localPassage face
      (modBoundary b (fun x => { x with holdEnd := hold, capEnd := some (after e.now (c.passageCap * 1000)) })
        (enterBoundary b .passage w))
  match x.state with
  | .closing | .reversing => if x.demand = .none then w else passage
  | .closed =>
    if x.demand = .none then modBoundary b (fun x => { x with openingMark := true }) (enterBoundary b .opened w)
    else passage
  | .passage => raiseDoor e b .localPassage face (modBoundary b (fun x => { x with holdEnd := hold }) w)
  | .unknown | .opened | .prewarn | .blocked | .failed => w

/-- A report of the station unit on the door of boundary `b` (R101, R102): the end switches first, then EDGE, then the
pushes. A report with a push is the push of R109 on a closed door, and not a door moved off its end (R105). -/
def doorReport (e : Env) (b : Nat) (r : StationReport) (w : Work) : Work :=
  match r.kind with
  | .established => doorEstablished e b w
  | .unconfirmed => w
  | .reply =>
    let w := if r.confirmsSet 0 then doorOpenEnd b w else w
    let w := if r.confirmsSet 1 then doorClosedEnd b w else w
    let face := bitOf (r.confirmsSet 3) 1 + bitOf (r.confirmsSet 4) 2
    let w := if r.confirmsClear 1 ∧ face = 0 then doorOffEnd e b w else w
    let w := if r.confirmsSet 2 then doorEdge e b w else w
    if face = 0 then w else doorPush e b face w

/-- The door station falls SILENT (R113). -/
def doorSilent (b : Nat) (w : Work) : Work := enterBoundary b .unknown w

/-- A release of a demanded boundary (R111): the demand and the count are cleared, the waiting orders complete, and every
timer stops. -/
def releaseOrders (b : Nat) (w : Work) : Work :=
  let w := modBoundary b (fun x => { x with demand := .none, obstructions := 0 }) w
  let w := each (tget w.boundaries b).waiting (fun slot w => cancelSlot b slot w) w
  modBoundary b (fun x => { noTimers x with waiting := [] }) w

/-- A door released with a demand (R112). -/
def releaseDoor (e : Env) (b : Nat) (w : Work) : Work :=
  let c := boundaryConfig e.ram b
  let opened := atOpenEnd w.toDeck c
  let mark (w : Work) : Work := modBoundary b (fun x => { x with openingMark := !opened }) w
  match (tget w.boundaries b).state with
  | .prewarn | .closing | .reversing | .passage => mark (enterBoundary b .opened w)
  | .closed => mark (if opened then enterBoundary b .opened w else w)
  | .failed =>
    if opened then enterBoundary b .opened w
    else if atClosedEnd w.toDeck c then enterBoundary b .closed w
    else w
  | .unknown | .opened | .blocked => w

/-! ## Covers: the state taken from the ramp (R114 to R117) -/

/-- The demand that stands on the cover of a ramp, NONE for a ramp without one. -/
def coverDemand (e : Env) (u : Nat) (d : Deck) : Demand :=
  match coverOf e.ram u with
  | some b => (tget d.boundaries b).demand
  | none => .none

/-- The part of R92 that applies to a ramp with no movement in hand: the permit and a pending request fall, and the cover
want is set in LANDED and HELD. -/
def demandOnRest (u : Nat) (w : Work) : Work :=
  modRamp u
    (fun r => { r with permit := false, request := .none, requestTimer := none,
                       coverWant := r.coverWant || r.state == .landed || r.state == .held }) w

/-- A cover enters BLOCKED (R116): COVER BLOCKED goes on the panel station's cell, or on the ramp station's. -/
def blockCover (e : Env) (b : Nat) (cause : BlockCause) (detail : Nat) (w : Work) : Work :=
  let c := rampConfig e.ram (boundaryConfig e.ram b).ramp
  raiseStation e (if c.panel = 0 then c.station else c.panel) .coverBlocked (detailWord cause.code detail)
    (modBoundary b (fun x => { x with blockCause := cause, blockDetail := detail }) (enterBoundary b .blocked w))

/-- The state of a cover without a demand (R114). -/
def coverAtRest : RampState → BoundaryState
  | .stowed => .closed
  | .unknown => .unknown
  | .warning | .unlocking | .lowering | .landed | .raising | .locking | .held | .faulted => .opened

/-- A demanded cover whose ramp is neither STOWED, UNKNOWN nor FAULTED (R114 to R117). A closure begins as at a new demand
when the cover was not in the course of one, and the ramp channel is told of the demand again. -/
def followDemanded (e : Env) (b u : Nat) (ramp : RampState) (reason : Reason) (w : Work) : Work :=
  match (tget w.boundaries b).state with
  | .prewarn | .blocked | .reversing | .passage => w
  | .closing => if ramp = .held then blockCover e b .rampStopped reason.code w else w
  | .unknown | .opened | .closed | .failed => demandOnRest u (enterPrewarn e b w)

/-- The ramp channel hands a new state to the cover of its ramp (R72, R114). -/
def followRamp (e : Env) (b u : Nat) (ramp : RampState) (reason : Reason) (w : Work) : Work :=
  let x := tget w.boundaries b
  if x.demand = .none then enterBoundary b (coverAtRest ramp) w
  else
    match ramp with
    | .stowed => if x.state = .closed then w else arrive b w
    | .unknown => enterBoundary b .unknown w
    | .faulted => if x.state = .failed then w else failClosure b w
    | .warning | .unlocking | .lowering | .landed | .raising | .locking | .held => followDemanded e b u ramp reason w

/-! ## CLOSE ZONE (R120) and the fire warning sets (R121) -/

/-- The boundaries of a zone, in adjacency entry order (R1). -/
def zoneBoundaries (m : Memory) (z : Nat) : List Nat := (zoneConfig m z).adjacency.filter fun b => b != 255

/-- A slot is in some waiting list. -/
def isWaiting (d : Deck) (slot : Nat) : Bool :=
  (List.range 24).any fun b => (tget d.boundaries b).waiting.contains slot

/-- A CLOSE ZONE order whose slot no waiting list holds any longer completes (R120). -/
def settleZoneOrder (slot : Nat) (w : Work) : Work :=
  let o := tget w.zoneOrders slot
  if o.inHand ∧ ¬ isWaiting w.toDeck slot then
    complete slot (if o.failedMask = 0 then .ok else .partly) (zoneDetail o) (modZoneOrder slot (fun _ => {}) w)
  else w

/-- Every CLOSE ZONE order is settled. -/
def settleZoneOrders (w : Work) : Work := each (List.range 32) settleZoneOrder w

/-- A warning state (R121). -/
def BoundaryState.warns : BoundaryState → Bool
  | .prewarn | .closing | .reversing | .passage | .blocked => true
  | .unknown | .opened | .closed | .failed => false

/-- The zones of a boundary as a mask. -/
def boundaryZones (c : BoundaryConfig) : Word := zoneBit c.zoneX ||| zoneBit c.zoneY

/-- The fire warning zone set of an urgency (R121). -/
def fireSet (e : Env) (d : Deck) (u : Demand) : Word :=
  (List.range 24).foldl
    (fun acc b =>
      let x := tget d.boundaries b
      let c := boundaryConfig e.ram b
      if c.inUse && x.state.warns && x.demand == u then acc ||| boundaryZones c else acc) 0

/-! ## Outputs (R100) -/

/-- The drive of a door (R100). -/
def driveOf (x : Boundary) : Drive :=
  match x.state with
  | .unknown => if x.demand = .none then .holdOpen else .close
  | .opened => if x.openingMark then .opening else .holdOpen
  | .prewarn | .blocked => .holdOpen
  | .closing => .close
  | .reversing | .passage => .opening
  | .closed => if x.demand ≠ .none then .close else if x.openingMark then .opening else .stop
  | .failed => .stop

/-- The beacon of a door (R100). -/
def beaconOf (x : Boundary) : Bool := x.demand != .none && x.state != .closed

/-- The rotation class of a door station (R100). -/
def doorClass : BoundaryState → Rotation
  | .closing | .reversing | .passage => .fast
  | .unknown | .opened | .prewarn | .closed | .blocked | .failed => .slow

/-- The values of a boundary at a transition of the part (R122). `occupied` is the occupancy held for a cover whose ramp
has a panel station. -/
def boundaryReset (now : Stamp) (occupied : Bool) (x : Boundary) : Boundary :=
  { edition := x.edition, occupancy := occupied, stateStamp := now }

/-- The occupancy of a boundary at a transition (R122): set for a cover whose ramp has a panel station. A bridge reset in SETUP may
find a ramp field that names no ramp, and the occupancy is then clear (log entry 44). -/
def occupancyAtReset (m : Memory) (b : Nat) : Bool :=
  let c := boundaryConfig m b
  c.isCover && decide (c.ramp < 4) && (rampConfig m c.ramp).panel != 0

/-- The boundary unit at a transition of the part (R122, R121). -/
def boundariesTransition (e : Env) (w : Work) : Work :=
  { w with boundaries := tabulate 24 fun b => boundaryReset e.now (occupancyAtReset e.ram b) (tget w.boundaries b)
           zoneOrders := Vector.replicate 32 {}, fireNormal := 0, fireEmergency := 0 }

end Sys2Proof.Machine
end

