-- ==== Sys2Proof/Machine/RampArithmetic.lean ====
section
/-! DEFINITION. The ramp position arithmetic (Chapter 4): samples, filter, calibration, velocity, band, and the checks. -/

namespace Sys2Proof.Machine

/-! ## Samples (R53 to R57) -/

/-- A raw count at the rail (R54). -/
def atRail (raw : Nat) : Bool := raw == 0 || raw == 4095

/-- The raw history with a new accepted sample (R55). -/
def pushRaw (history : List Nat) (s : Nat) : List Nat :=
  if history.isEmpty then [s, s, s, s] else history.drop 1 ++ [s]

/-- The filtered count: the mean of the history, rounded, a half upward (R55). -/
def filteredCount (history : List Nat) : Nat := (history.sum + 2) / 4

/-- A quotient rounded to the nearest whole number, a tie away from zero (R56). -/
def roundedQuotient (n : Int) (d : Nat) : Int :=
  let q : Int := ((2 * n.natAbs + d) / (2 * d) : Nat)
  if n < 0 then -q else q

/-- The unclamped angle of a filtered count (R56). -/
def rawAngle (c : RampConfig) (f : Nat) : Int :=
  c.angleLow + roundedQuotient (((f : Int) - c.rawLow) * (c.angleHigh - c.angleLow)) (c.rawHigh - c.rawLow)

/-- An angle limited to −300 to +900 (R57). -/
def clampAngle (x : Int) : Int := max (-300) (min 900 x)

/-! ## Velocity (R59) -/

/-- The velocity of angle `x` at `stamp` against the oldest entry of the history, in tenths of a degree per second. -/
def velocityOf (history : List AngleEntry) (x : Int) (stamp : Stamp) : Int :=
  match history with
  | [] => 0
  | oldest :: _ =>
    let dt := (stamp - oldest.stamp).toNat
    if dt = 0 then 0 else max (-999) (min 999 (((x - oldest.angle) * 1000).tdiv dt))

/-- Steps 1 and 2 of R60: an accepted sample runs the filter, the conversion, the clamp and the velocity. -/
def acceptSample (c : RampConfig) (raw : Nat) (stamp : Stamp) (r : Ramp) : Ramp :=
  let history := pushRaw r.rawHistory raw
  let f := filteredCount history
  let angle := clampAngle (rawAngle c f)
  { r with rawHistory := history, filtered := f, angle := angle, clamped := angle != rawAngle c f, angleValid := true,
           railRun := 0, velocity := velocityOf r.angleHistory angle stamp }

/-- Step 7 of R60: the sample enters the angle history (R58). -/
def enterSample (stamp : Stamp) (r : Ramp) : Ramp :=
  { r with angleHistory := (if r.angleHistory.length < 8 then r.angleHistory else r.angleHistory.drop 1) ++ [⟨r.angle, stamp⟩],
           phaseSamples := satAdd 255 r.phaseSamples }

/-- A motion phase begins (R52, R58, R63). -/
def beginPhase (r : Ramp) : Ramp := { r with angleHistory := [], phaseSamples := 0, wrongRun := 0 }

/-! ## Band (R61) -/

/-- The band of a distance; `none` is AT TARGET (R61). -/
def bandOf (c : RampConfig) (distance : Nat) : Band :=
  if c.slowZone < distance then .full
  else if c.creepZone < distance then .slow
  else if c.stopBand < distance then .creep
  else .none

/-- The target of a movement (R61, R74): the landing estimate, the order's clamped target, or the stow angle. -/
def targetOf (c : RampConfig) (m : Movement) (clamped : Int) : Int :=
  match m with
  | .lowerLand => c.landingEstimate
  | .lowerToAngle => clamped
  | .raise => c.stowAngle
  | .none => 0

/-- The distance of a ramp from the target of its movement (R61). -/
def distanceOf (r : Ramp) : Nat := (r.target - r.angle).natAbs

/-- LOWERING or RAISING: the states with a band (R61). -/
def RampState.drives : RampState → Bool
  | .lowering | .raising => true
  | .unknown | .stowed | .warning | .unlocking | .landed | .locking | .held | .faulted => false

/-- The band commanded at the start of a motion phase (R61): CREEP until the angle is valid, and CREEP at the target. -/
def bandAtStart (c : RampConfig) (r : Ramp) : Band :=
  if !r.state.drives then .none
  else if !r.angleValid then .creep
  else if bandOf c (distanceOf r) = .none then .creep else bandOf c (distanceOf r)

/-- The ramp has reached the target of a TO ANGLE lowering (R61, R82). -/
def reachesTarget (c : RampConfig) (r : Ramp) : Bool :=
  r.movement == .lowerToAngle && r.angleValid && bandOf c (distanceOf r) == .none

/-! ## Checks of a driven sample (R60, steps 3 to 6) -/

/-- What steps 3 to 6 decide. -/
inductive SampleVerdict where
  | goOn | atTarget | fault (reason : Reason)
  deriving DecidableEq, Repr

/-- The travel limit check (R64). -/
def travelFault (c : RampConfig) (tip stowed : Bool) (r : Ramp) : Option Reason :=
  match r.state with
  | .lowering => if r.angle ≤ c.lowerLimit ∧ ¬ tip then some .noLanding else none
  | .raising => if c.stowAngle + 20 < r.angle ∧ ¬ stowed then some .noStowLimit else none
  | .unknown | .stowed | .warning | .unlocking | .landed | .locking | .held | .faulted => none

/-- A wrong-direction sample (R63). -/
def wrongDirection (r : Ramp) : Bool :=
  match r.state with
  | .lowering => decide (5 < r.velocity)
  | .raising => decide (r.velocity < -5)
  | .unknown | .stowed | .warning | .unlocking | .landed | .locking | .held | .faulted => false

/-- The movement that the stall check requires in a band (R62). -/
def requiredMovement (c : RampConfig) : Band → Nat
  | .creep => max 1 (c.minProgress / 4)
  | .none | .slow | .full => c.minProgress

/-- The entry `n` back in the history, the newest being one back (R62). -/
def entryBack (history : List AngleEntry) (n : Nat) : Option AngleEntry := history.reverse[n - 1]?

/-- The stall check of a sample whose band is not AT TARGET (R62). -/
def stalls (c : RampConfig) (band : Band) (r : Ramp) : Bool :=
  decide (c.stallWindow ≤ r.phaseSamples) &&
    match entryBack r.angleHistory c.stallWindow with
    | some x => decide ((r.angle - x.angle).natAbs < requiredMovement c band)
    | none => false

/-- Steps 3 to 6 of R60 for a ramp in LOWERING or RAISING, after steps 1 and 2. `tip` and `stowed` are the confirmed
switches of the same reply. -/
def drivenSample (c : RampConfig) (tip stowed : Bool) (r : Ramp) : Ramp × SampleVerdict :=
  let band := bandOf c (distanceOf r)
  if reachesTarget c r then (r, .atTarget)
  else
    let r := { r with band := if band = .none then .creep else band }
    match travelFault c tip stowed r with
    | some reason => (r, .fault reason)
    | none =>
      let r := { r with wrongRun := if wrongDirection r then r.wrongRun + 1 else 0 }
      if 3 ≤ r.wrongRun then (r, .fault .wrongDirection)
      else if band ≠ .none ∧ stalls c band r then (r, .fault .stall)
      else (r, .goOn)

/-! ## Drift (R65, R66) -/

/-- The drift δ of a landed ramp (R65). -/
def driftOf (r : Ramp) : Int := r.angle - r.landingAngle

/-- The drift flags after a sample in LANDED (R65, R66). -/
def driftFlags (c : RampConfig) (r : Ramp) : Ramp :=
  let m := (driftOf r).natAbs
  { r with
    driftWarned := if c.warnLimit < m then true else if m + 10 ≤ c.warnLimit then false else r.driftWarned
    driftLimit := decide (c.hardLimit < m) }

/-- The magnitude of the angle is within the traffic limit; an angle that is not valid is not (R57, R82). -/
def withinTraffic (c : RampConfig) (r : Ramp) : Bool := r.angleValid && decide (r.angle.natAbs ≤ c.trafficLimit)

/-- The magnitude of the drift is within the hard limit (R91). -/
def withinHard (c : RampConfig) (r : Ramp) : Bool := r.angleValid && decide ((driftOf r).natAbs ≤ c.hardLimit)

/-! ## Silence and transitions (R67, R68) -/

/-- The arithmetic state when the ramp station falls SILENT (R67). -/
def silenceArithmetic (r : Ramp) : Ramp :=
  { beginPhase r with rawHistory := [], lastSequence := none, railRun := 0, velocity := 0, angleValid := false }

/-- The ramp status at START SERVICE and at bridge reset (R68, R97). -/
def rampCleared (now : Stamp) (r : Ramp) : Ramp := { edition := r.edition, slot := 255, stateStamp := now }

/-- The ramp status at ENTER SETUP (R68, R97): f, θ, the clamp flag and the landing angle are kept. -/
def rampToSetup (now : Stamp) (r : Ramp) : Ramp :=
  { rampCleared now r with filtered := r.filtered, angle := r.angle, clamped := r.clamped, landingAngle := r.landingAngle }

end Sys2Proof.Machine
end

