-- ==== Sys2Proof/Machine/Ramps.lean ====
section
/-! DEFINITION. The ramp channel (Chapter 5): states, interlocks, warnings, movements, orders, stops and closure raises.
Warning records, panel lamps, rotation classes and POLL outputs follow the ramp's state at the end of the event. -/

namespace Sys2Proof.Machine

/-! ## What the channel sees -/

/-- The state of a ramp channel. -/
def rampOf (d : Deck) (u : Nat) : Ramp := tget d.ramps u

/-- Switch `i` of the ramp station is confirmed set: 0 STOWED, 1 PINS LOCKED, 2 PINS UNLOCKED, 3 TIP CONTACT,
4 PRESSURE OK (R18). -/
def rampSwitch (e : Env) (u i : Nat) (d : Deck) : Bool := inputSet d (rampConfig e.ram u).station i

/-- The ramp has a panel station. -/
def hasPanel (e : Env) (u : Nat) : Bool := (rampConfig e.ram u).panel != 0

/-- Button `i` of the panel station is confirmed set: 0 REQUEST LOWER, 1 REQUEST RAISE, 2 DEADMAN, 3 STOP, 4 OCCUPIED
(R18). -/
def panelButton (e : Env) (u i : Nat) (d : Deck) : Bool := hasPanel e u && inputSet d (rampConfig e.ram u).panel i

/-- STOWED and PINS LOCKED are both confirmed set. -/
def fullyStowed (e : Env) (u : Nat) (d : Deck) : Bool := rampSwitch e u 0 d && rampSwitch e u 1 d

/-- The four motion states (R52). -/
def RampState.moves : RampState → Bool
  | .unlocking | .lowering | .raising | .locking => true
  | .unknown | .stowed | .warning | .landed | .held | .faulted => false

/-- HELD with reason DEADMAN (R84). -/
def Ramp.deadmanHeld (r : Ramp) : Bool := r.state == .held && r.reason == .deadman

/-- The ramp is busy (R71): a movement held by the deadman is in hand while it has a source. -/
def Ramp.busy (r : Ramp) : Bool :=
  r.state == .warning || r.state.moves || (r.deadmanHeld && r.source != .none)

/-- The direction of the movement in hand is down. -/
def Movement.lowers : Movement → Bool
  | .lowerLand | .lowerToAngle => true
  | .none | .raise => false

/-- The first zone of the ramp has a call station (R79). -/
def warningStation (e : Env) (u : Nat) : Option Nat :=
  let z := (rampConfig e.ram u).zone
  if z < 16 then zoneStation e.ram z else none

/-- A warning want stands (R77). -/
def Ramp.wants (r : Ramp) : Bool := r.motionWant || r.driftWant || r.coverWant

/-! ## State changes (R72) -/

/-- The valve command of a state (5.2). -/
def valveOf : RampState → Valve
  | .unlocking => .pinsOut
  | .lowering => .lower
  | .landed => .float
  | .raising => .raise
  | .locking => .pinsIn
  | .unknown | .stowed | .warning | .held | .faulted => .neutral

/-- The motion want after a change to a state (R77). -/
def motionWantIn (st : RampState) (reason : Reason) (want : Bool) : Bool :=
  match st with
  | .stowed | .landed | .faulted => false
  | .held => want && reason == .deadman
  | .unknown | .warning | .unlocking | .lowering | .raising | .locking => want

/-- A ramp in a new state (R72): outputs, stamp, phase, pins timer (R81), permit (R90), landing angle and drift flags
(R65), wants (R77, R66, R93), and the timers of WARNING and of a deadman hold, which end with them. An entry from HELD to HELD
with another reason counts as a change of state: its stamp moves and a motion phase of R52 begins (log entry 28). -/
def rampInState (c : RampConfig) (now : Stamp) (st : RampState) (reason : Reason) (r : Ramp) : Ramp :=
  let r : Ramp :=
    { beginPhase r with
      state := st, reason := reason, stateStamp := now, valve := valveOf st, permit := false
      pinsTimer := if st = .unlocking ∨ st = .locking then some (after now (c.pinsLimit * 1000)) else none
      resumeTimer := none, prewarnEnd := none, dwell := false, playLimit := none, deadmanWait := none
      landingAngle := if st = .landed then r.angle else r.landingAngle
      driftWarned := r.driftWarned && st != .landed
      driftLimit := r.driftLimit && st != .landed
      motionWant := motionWantIn st reason r.motionWant
      driftWant := r.driftWant && st == .landed
      coverWant := r.coverWant && st != .stowed }
  { r with band := bandAtStart c r }

/-- A state change (R72): the zone unit has its ramp report, and the boundary unit the state and the reason. The ramp report
goes first, before the cover's boundary report at the end of the event; R7 lets either arrive first (log entry 7). -/
def enterState (e : Env) (u : Nat) (st : RampState) (reason : Reason) (w : Work) : Work :=
  let w := rampReport e u st (modRamp u (rampInState (rampConfig e.ram u) e.now st reason) w)
  match coverOf e.ram u with
  | some b => followRamp e b u st reason w
  | none => w

/-- The detail of a completed motion order (R74). -/
def motionDetail (code : Nat) (target : Int) (r : Ramp) : List Byte :=
  [byteOf code, byteOf r.state.code, byteOf r.reason.code, 0] ++ wordBytes (angleWord r.angle) ++
    wordBytes (angleWord target)

/-- The order of the movement in hand, if it has one, completes (R74). -/
def completeMovement (u : Nat) (result : Result) (code : Nat) (w : Work) : Work :=
  let r := rampOf w.toDeck u
  if r.source = .order then complete r.slot result (motionDetail code r.target r) w else w

/-- A ramp with no movement in hand. -/
def noMovement (r : Ramp) : Ramp :=
  { r with source := .none, slot := 255, control := .bridge, movement := .none, target := 0, motionWant := false,
           resume := none, resumeTimer := none }

/-- The movement in hand ends with a result (R74, R79 to R86). -/
def finishMovement (u : Nat) (result : Result) (code : Nat) (w : Work) : Work :=
  modRamp u noMovement (completeMovement u result code w)

/-- The ramp changes state and its movement ends. -/
def endMovementIn (e : Env) (u : Nat) (st : RampState) (reason : Reason) (result : Result) (code : Nat) (w : Work) : Work :=
  finishMovement u result code (enterState e u st reason w)

/-- A pending panel request ends (R88). -/
def dropRequest (u : Nat) (w : Work) : Work :=
  modRamp u (fun r => { r with request := .none, requestTimer := none }) w

/-- An attention on the ramp station's cell. -/
def raiseRamp (e : Env) (u : Nat) (kind : AttentionKind) (detail : Word) (w : Work) : Work :=
  raiseStation e (rampConfig e.ram u).station kind detail w

/-- An attention on the panel station's cell. -/
def raisePanel (e : Env) (u : Nat) (kind : AttentionKind) (detail : Word) (w : Work) : Work :=
  raiseStation e (rampConfig e.ram u).panel kind detail w

/-- The ramp enters FAULTED (R83). -/
def faultRamp (e : Env) (u : Nat) (reason : Reason) (w : Work) : Work :=
  let w := endMovementIn e u .faulted reason .fault 0 w
  if reason = .sensorRail then w else raiseRamp e u .rampFault (detailWord reason.code 0) w

/-- A landing (R82): LANDED, the permit when the angle allows, and otherwise RAMP FAULT with detail 14 STEEP. -/
def landRamp (e : Env) (u : Nat) (w : Work) : Work :=
  let w := enterState e u .landed .none w
  if withinTraffic (rampConfig e.ram u) (rampOf w.toDeck u) then modRamp u (fun r => { r with permit := true }) w
  else raiseRamp e u .rampFault (detailWord 14 0) w

/-- LOWERING is entered (R61): a TO ANGLE movement already at its target goes on to HELD with reason TARGET. -/
def enterLowering (e : Env) (u : Nat) (w : Work) : Work :=
  let w := enterState e u .lowering .none w
  if reachesTarget (rampConfig e.ram u) (rampOf w.toDeck u) then endMovementIn e u .held .target .ok 0 w else w

/-! ## Interlocks (R74) -/

/-- A movement in a direction may start from this state (R74). -/
def mayStart (lowers : Bool) : RampState → Bool
  | .stowed => lowers
  | .landed => !lowers
  | .held => true
  | .unknown | .warning | .unlocking | .lowering | .raising | .locking | .faulted => false

/-- RAMP STATE passes (R74): the direction may start here, or the ramp is busy in the other direction. -/
def rampStatePasses (lowers : Bool) (r : Ramp) : Bool :=
  if r.busy then r.movement.lowers != lowers else mayStart lowers r.state

/-- The ramp station is SILENT. -/
def rampSilent (e : Env) (u : Nat) (d : Deck) : Bool := (stationOf d (rampConfig e.ram u).station).silent

/-- The ramp has a panel station and it is SILENT. -/
def panelSilent (e : Env) (u : Nat) (d : Deck) : Bool := hasPanel e u && (stationOf d (rampConfig e.ram u).panel).silent

/-- WARNING PATH fails (R74): the call station of the first zone is SILENT. -/
def warningPathSilent (e : Env) (u : Nat) (d : Deck) : Bool :=
  match warningStation e u with
  | some addr => (stationOf d addr).silent
  | none => false

/-- TARGET fails (R74): mode TO ANGLE, and the target is not below θ by more than the stop band. An angle that is not
valid is no measurement, and the check fails (R57). -/
def targetFails (c : RampConfig) (m : Movement) (target : Int) (r : Ramp) : Bool :=
  m == .lowerToAngle && !(r.angleValid && decide (target < r.angle - c.stopBand))

/-- The interlock checks in order; the first failing code (R74). -/
def interlock (e : Env) (u : Nat) (withState : Bool) (m : Movement) (control : Control) (target : Int) (d : Deck) :
    Option Nat :=
  let r := rampOf d u
  if withState && !rampStatePasses m.lowers r then some 2
  else if control == .atPanel && !hasPanel e u then some 3
  else if rampSilent e u d then some 4
  else if panelSilent e u d then some 5
  else if !rampSwitch e u 4 d then some 6
  else if panelButton e u 3 d then some 7
  else if coverDemand e u d != .none then some 8
  else if warningPathSilent e u d then some 9
  else if targetFails (rampConfig e.ram u) m target r then some 10
  else none

/-- The checks of the movement in hand, without RAMP STATE (R80, R84). -/
def interlockInHand (e : Env) (u : Nat) (d : Deck) : Option Nat :=
  let r := rampOf d u
  interlock e u false r.movement r.control r.target d

/-! ## WARNING (R78 to R80) -/

/-- The movement that a ramp takes in hand. -/
structure Request where
  movement : Movement
  control  : Control
  source   : Source
  slot     : Nat
  target   : Int
  deriving DecidableEq, Repr

/-- A ramp with a movement in hand (step 1 of R78). -/
def takeMovement (q : Request) (r : Ramp) : Ramp :=
  { r with movement := q.movement, control := q.control, source := q.source, slot := q.slot, target := q.target,
           resume := none, resumeTimer := none }

/-- Entry to WARNING (R78). -/
def enterWarning (e : Env) (u : Nat) (q : Request) (w : Work) : Work :=
  let c := rampConfig e.ram u
  let old := rampOf w.toDeck u
  modRamp u
    (fun r => { takeMovement q r with
                  rest := old.state, restReason := if old.state = .held then old.reason else .none, heard := false,
                  prewarnEnd := some (after e.now (c.motionPrewarn * 1000)), motionWant := true })
    (enterState e u .warning .none w)

/-- WARNING ends in failure (R78): the ramp returns to its rest state and the movement ends with a result. -/
def failWarning (e : Env) (u : Nat) (result : Result) (code : Nat) (w : Work) : Work :=
  let r := rampOf w.toDeck u
  endMovementIn e u r.rest r.restReason result code w

/-- The next state of a lowering by its switches (R80). -/
def startLowering (e : Env) (u : Nat) (w : Work) : Work :=
  if !rampSwitch e u 2 w.toDeck then enterState e u .unlocking .none w
  else if (rampOf w.toDeck u).movement == .lowerLand && rampSwitch e u 3 w.toDeck then
    finishMovement u .ok 0 (landRamp e u w)
  else enterLowering e u w

/-- The next state of a raising by its switches (R80). -/
def startRaising (e : Env) (u : Nat) (w : Work) : Work :=
  if fullyStowed e u w.toDeck then endMovementIn e u .stowed .none .ok 0 w
  else if rampSwitch e u 0 w.toDeck then enterState e u .locking .none w
  else enterState e u .raising .none w

/-- WARNING ends (R80): the checks, and then the first state of the direction. -/
def endWarningState (e : Env) (u : Nat) (w : Work) : Work :=
  match interlockInHand e u w.toDeck with
  | some code => failWarning e u .refusedInterlock code w
  | none => if (rampOf w.toDeck u).movement.lowers then startLowering e u w else startRaising e u w

/-- The warning has been heard, or is waived for want of a call station (R79). -/
def heardOrWaived (e : Env) (u : Nat) (d : Deck) : Bool := (rampOf d u).heard || (warningStation e u).isNone

/-- The conditions of R79 looked at again: WARNING ends when all hold, and the deadman wait starts when only DEADMAN is
wanting. -/
def checkWarning (e : Env) (u : Nat) (w : Work) : Work :=
  let r := rampOf w.toDeck u
  if r.state ≠ .warning ∨ r.prewarnEnd ≠ none ∨ ¬ heardOrWaived e u w.toDeck then w
  else if r.control = .bridge ∨ panelButton e u 2 w.toDeck then endWarningState e u w
  else if r.deadmanWait.isSome then w
  else modRamp u (fun r => { r with deadmanWait := some (after e.now 60000) }) w

/-- The prewarn timer expires (R79): with the warning unheard the play limit starts. -/
def motionPrewarnEnds (e : Env) (u : Nat) (w : Work) : Work :=
  let w := modRamp u (fun r => { r with prewarnEnd := none, dwell := false }) w
  if heardOrWaived e u w.toDeck then checkWarning e u w
  else modRamp u (fun r => { r with playLimit := some (after e.now 60000) }) w

/-- The play limit runs out (R79): FAULT with detail code 11 WARNING TIMEOUT. -/
def playLimitEnds (e : Env) (u : Nat) (w : Work) : Work := failWarning e u .fault 11 w

/-- The deadman wait runs out (R79). -/
def deadmanWaitEnds (e : Env) (u : Nat) (w : Work) : Work := failWarning e u .heldTimeout 0 w

/-- The reversal dwell ends (R87). -/
def reversalDwellEnds (e : Env) (u : Nat) (w : Work) : Work :=
  checkWarning e u (modRamp u (fun r => { r with prewarnEnd := none, dwell := false }) w)

/-- The pins timer runs out (R81). -/
def pinsTimerEnds (e : Env) (u : Nat) (w : Work) : Work := faultRamp e u .pins w

/-- The resume timer runs out (R84): the ramp stays HELD with reason DEADMAN and is not busy. -/
def resumeTimerEnds (u : Nat) (w : Work) : Work := finishMovement u .heldTimeout 0 w

/-- A heard notice (R77, R79). -/
def heardNotice (e : Env) (u : Nat) (w : Work) : Work :=
  let r := rampOf w.toDeck u
  if r.state = .warning ∧ ¬ r.heard then
    checkWarning e u (modRamp u (fun r => { r with heard := true, playLimit := none }) w)
  else w

/-- A silent notice (R79). -/
def silentNotice (e : Env) (u : Nat) (w : Work) : Work :=
  let r := rampOf w.toDeck u
  if r.state = .warning ∧ ¬ r.heard then failWarning e u .refusedInterlock 9 w else w

/-- The notices of the call unit are delivered (R132). -/
def deliverNotices (e : Env) (w : Work) : Work :=
  each w.notices
    (fun n w =>
      match n with
      | .heard u => heardNotice e u w
      | .silent u => silentNotice e u w)
    { w with notices := [] }

/-! ## The motion orders (R75, R76, R87) -/

/-- A motion order that starts nothing completes (R74). -/
def completeMotionOrder (u slot : Nat) (result : Result) (code : Nat) (target : Int) (w : Work) : Work :=
  complete slot result (motionDetail code target (rampOf w.toDeck u)) w

/-- A movement supersedes the one in hand (R87). The condition of a warning heard is met, and the warning heard flag shows it
also for a ramp whose first zone has no call station (log entry 40). -/
def supersede (e : Env) (u : Nat) (q : Request) (w : Work) : Work :=
  let w := completeMovement u .superseded 0 w
  if (rampOf w.toDeck u).state = .warning then
    checkWarning e u (modRamp u (fun r => { takeMovement q r with deadmanWait := none }) w)
  else
    modRamp u
      (fun r => { takeMovement q r with
                    rest := .held, restReason := .order, heard := true, dwell := true,
                    prewarnEnd := some (after e.now 1000), motionWant := true })
      (enterState e u .warning .none w)

/-- A motion order past its interlock checks (R75, R76, R88): a pending request ends, and the movement starts. -/
def startMovement (e : Env) (u : Nat) (q : Request) (w : Work) : Work :=
  let w := dropRequest u w
  if (rampOf w.toDeck u).busy then supersede e u q w else enterWarning e u q w

/-- The control of a parameter byte (R75). -/
def controlOf (n : Nat) : Option Control :=
  match n with
  | 0 => some .bridge
  | 1 => some .atPanel
  | _ => none

/-- The mode of a parameter byte (R75). -/
def modeOf (n : Nat) : Option Movement :=
  match n with
  | 0 => some .lowerLand
  | 1 => some .lowerToAngle
  | _ => none

/-- A TO ANGLE target clamped to the range from the lower travel limit to the stow angle (R75). -/
def clampTarget (c : RampConfig) (x : Int) : Int := max c.lowerLimit (min c.stowAngle x)

/-- Steps 5 and 6 of R75 and steps 4 and 5 of R76. -/
def checkAndStart (e : Env) (u : Nat) (q : Request) (w : Work) : Work :=
  match interlock e u true q.movement q.control q.target w.toDeck with
  | some code => completeMotionOrder u q.slot .refusedInterlock code q.target w
  | none => startMovement e u q w

/-- Step 4 of R75 in HELD: mode LAND on a ramp that already touches. -/
def landsAtOnce (e : Env) (u : Nat) (m : Movement) (d : Deck) : Bool :=
  let r := rampOf d u
  r.state == .held && !r.busy && !panelButton e u 3 d && coverDemand e u d == .none && m == .lowerLand &&
    rampSwitch e u 3 d

/-- RAMP LOWER at the ramp channel (R75). The detail of a refusal has the target of its mode (R74); a mode that is none has no
target, and its detail has 0 there (log entry 14). -/
def lowerRamp (e : Env) (u slot : Nat) (mode control : Nat) (angle : Int) (w : Work) : Work :=
  let c := rampConfig e.ram u
  let goal (m : Movement) : Int := targetOf c m (clampTarget c angle)
  match modeOf mode, controlOf control with
  | some m, some control =>
    let target := goal m
    let r := rampOf w.toDeck u
    if r.busy && r.movement.lowers then completeMotionOrder u slot .refusedBusy 0 target w
    else if r.state = .landed then
      if m = .lowerLand then completeMotionOrder u slot .ok 0 target w
      else completeMotionOrder u slot .refusedInterlock 2 target w
    else if landsAtOnce e u m w.toDeck then completeMotionOrder u slot .ok 0 target (landRamp e u w)
    else checkAndStart e u ⟨m, control, .order, slot, target⟩ w
  | some m, none => completeMotionOrder u slot .refusedTarget 0 (goal m) w
  | none, _ => completeMotionOrder u slot .refusedTarget 0 0 w

/-- RAMP RAISE at the ramp channel (R76). -/
def raiseRampOrder (e : Env) (u slot : Nat) (control : Nat) (w : Work) : Work :=
  let c := rampConfig e.ram u
  let target := targetOf c .raise 0
  match controlOf control with
  | some control =>
    let r := rampOf w.toDeck u
    if r.busy && r.movement == .raise then completeMotionOrder u slot .refusedBusy 0 target w
    else if r.state = .stowed then completeMotionOrder u slot .ok 0 target w
    else if r.state == .held && !r.busy && fullyStowed e u w.toDeck then
      completeMotionOrder u slot .ok 0 target (enterState e u .stowed .none w)
    else checkAndStart e u ⟨.raise, control, .order, slot, target⟩ w
  | none => completeMotionOrder u slot .refusedTarget 0 target w

/-! ## Stops (R86, R85, R92, R94, R96) -/

/-- The movement in hand is stopped in HELD with a reason (R85, R86, R92, R94, R96). -/
def holdRamp (e : Env) (u : Nat) (reason : Reason) (result : Result) (w : Work) : Work :=
  endMovementIn e u .held reason result 0 w

/-- RAMP STOP at the ramp channel (R86). -/
def stopRamp (e : Env) (u slot : Nat) (w : Work) : Work :=
  let r := rampOf w.toDeck u
  let w :=
    if r.state = .warning then failWarning e u .stopped 0 w
    else if r.state.moves || r.deadmanHeld then holdRamp e u .order .stopped w
    else if r.state = .faulted then
      if fullyStowed e u w.toDeck then enterState e u .stowed .none w else enterState e u .held .order w
    else w
  complete slot .ok [] (dropRequest u w)

/-- Panel STOP is confirmed set (R85). A closure raise that it stops places COVER BLOCKED on the panel station's cell before
PANEL STOP; R146 lets either come first (log entry 38). -/
def panelStop (e : Env) (u : Nat) (w : Work) : Work :=
  let r := rampOf w.toDeck u
  let w := modRamp u (fun r => { r with permit := false }) w
  let w := if r.state == .warning || r.state.moves || r.deadmanHeld then holdRamp e u .stop .stopped w else w
  raisePanel e u .panelStop (detailWord r.state.code 0) (dropRequest u w)

/-- A demand is set on the ramp's cover (R92). -/
def coverDemandSet (e : Env) (u : Nat) (w : Work) : Work :=
  let r := rampOf w.toDeck u
  let w :=
    if r.state = .warning then failWarning e u .superseded 0 w
    else if r.state.moves || r.deadmanHeld then holdRamp e u .cover .superseded w
    else w
  demandOnRest u w

/-- The demand on the ramp's cover is cleared (R92). -/
def coverDemandCleared (e : Env) (u : Nat) (w : Work) : Work :=
  let w := modRamp u (fun r => { r with coverWant := false }) w
  let r := rampOf w.toDeck u
  if r.source = .closure ∧ (r.state = .raising ∨ r.state = .locking) then holdRamp e u .cover .ok w else w

/-- The part enters SAFE-HOLD (R96). -/
def rampSafeHold (e : Env) (u : Nat) (w : Work) : Work :=
  let w := if (rampOf w.toDeck u).busy then holdRamp e u .bridgeLost .stopped w else w
  dropRequest u w

/-- The ramp station falls SILENT (R67, R94). -/
def rampStationSilent (e : Env) (u : Nat) (w : Work) : Work :=
  let w := modRamp u silenceArithmetic w
  let r := rampOf w.toDeck u
  if r.state == .warning || r.state.moves || r.deadmanHeld then holdRamp e u .silent .fault w
  else modRamp u (fun r => { r with permit := false }) w

/-! ## RAMP TRAFFIC (R91) -/

/-- The checks of RAMP TRAFFIC ON; the first failing code (R91). -/
def trafficCheck (e : Env) (u : Nat) (d : Deck) : Option Nat :=
  let r := rampOf d u
  let c := rampConfig e.ram u
  if r.state ≠ .landed then some 12
  else if !rampSwitch e u 3 d then some 13
  else if !withinTraffic c r then some 14
  else if !withinHard c r then some 15
  else if panelButton e u 3 d then some 7
  else if coverDemand e u d != .none then some 8
  else none

/-- RAMP TRAFFIC at the ramp channel (R91). -/
def trafficOrder (e : Env) (u slot : Nat) (param : Nat) (w : Work) : Work :=
  match param with
  | 0 => complete slot .ok [] (modRamp u (fun r => { r with permit := false }) w)
  | 1 =>
    if (rampOf w.toDeck u).permit then complete slot .ok [] w
    else
      match trafficCheck e u w.toDeck with
      | some code => complete slot .refusedInterlock [byteOf code] w
      | none => complete slot .ok [] (modRamp u (fun r => { r with permit := true, driftWant := false }) w)
  | _ => complete slot .refusedTarget [] w

/-! ## The closure raise (R93) -/

/-- The checks of a closure raise, in order (R93). -/
def closureCheck (e : Env) (u : Nat) (d : Deck) : Option Nat :=
  let st := (rampOf d u).state
  if st ≠ .landed ∧ st ≠ .held then some 2
  else if rampSilent e u d then some 4
  else if !rampSwitch e u 4 d then some 6
  else if panelButton e u 3 d then some 7
  else none

/-- The boundary unit asks for a closure raise: the failing code, or `none` with the raise begun (R93). -/
def closureRaise (e : Env) (u : Nat) (w : Work) : Option Nat × Work :=
  let r := rampOf w.toDeck u
  if r.state = .stowed ∨ (r.source = .closure ∧ (r.state = .raising ∨ r.state = .locking)) then (none, w)
  else
    match closureCheck e u w.toDeck with
    | some code => (some code, w)
    | none =>
      let c := rampConfig e.ram u
      (none, startRaising e u (modRamp u (takeMovement ⟨.raise, .bridge, .closure, 255, c.stowAngle⟩) w))

end Sys2Proof.Machine
end

