-- ==== Sys2Proof/Machine/Covers.lean ====
section
/-! DEFINITION. The boundary orders over doors and covers, and what the boundary unit and a ramp channel ask of each other
(R92, R93, R104, R111, R115, R116, R118 to R120). -/

namespace Sys2Proof.Machine

/-! ## Raises (R116, R118) -/

/-- The boundary unit asks for the closure raise of cover `b`: the cover enters CLOSING, or BLOCKED with cause RAISE
REFUSED and the failing code, which is answered (R116, R118). -/
def requestRaise (e : Env) (b : Nat) (w : Work) : Option Nat × Work :=
  let u := (boundaryConfig e.ram b).ramp
  match closureRaise e u (enterBoundary b .closing w) with
  | (none, w) => (none, w)
  | (some code, w) => (some code, blockCover e b .raiseRefused code w)

/-- The prewarn timer of a cover runs out (R116). -/
def coverPrewarnEnds (e : Env) (b : Nat) (w : Work) : Work :=
  if (tget w.boundaries b).occupancy then blockCover e b .occupied 0 w else (requestRaise e b w).2

/-- The ramp channel hands over the occupancy of its panel at a change (R92, R118). -/
def occupancyChanged (e : Env) (b : Nat) (occupied : Bool) (w : Work) : Work :=
  let x := tget w.boundaries b
  if x.occupancy = occupied then w
  else
    let w := modBoundary b (fun x => { x with occupancy := occupied }) w
    if x.state = .blocked ∧ x.blockCause = .occupied ∧ ¬ occupied then (requestRaise e b w).2 else w

/-- The occupancy of a ramp's panel (R92): set unless OCCUPIED is confirmed clear; clear without a panel. -/
def panelOccupied (e : Env) (u : Nat) (d : Deck) : Bool :=
  let c := rampConfig e.ram u
  hasPanel e u && (panelSilent e u d || !inputClear d c.panel 4)

/-- The occupancy of a ramp's panel is handed to its cover. -/
def handOccupancy (e : Env) (u : Nat) (w : Work) : Work :=
  match coverOf e.ram u with
  | some b => occupancyChanged e b (panelOccupied e u w.toDeck) w
  | none => w

/-! ## CLOSE BOUNDARY and CLOSE ZONE (R104, R115, R120) -/

/-- Whether a ramp's state lets a demanded cover take a course of closure (R115). -/
def coverCloses : RampState → Bool
  | .stowed | .unknown | .faulted => false
  | .warning | .unlocking | .lowering | .landed | .raising | .locking | .held => true

/-- The state of a cover with a new demand, from the ramp state held (R115). -/
def coverDemanded (e : Env) (b : Nat) (ramp : RampState) (w : Work) : Work :=
  if coverCloses ramp then enterPrewarn e b w
  else enterBoundary b (if ramp = .stowed then .closed else if ramp = .faulted then .failed else .unknown) w

/-- Steps 2 and 4 of R104, the escalation of R106, and R115 for a cover. -/
def closeCover (e : Env) (b slot : Nat) (u : Demand) (w : Work) : Work :=
  let x := tget w.boundaries b
  let ramp := (boundaryConfig e.ram b).ramp
  let fresh := x.demand == .none
  let w := modBoundary b (demandTaken e b u) w
  let w := if fresh then coverDemanded e b (rampOf w.toDeck ramp).state w else w
  let st := (tget w.boundaries b).state
  let w :=
    if st = .closed then settleSlot b true slot w
    else if st = .failed then settleSlot b false slot w
    else modBoundary b (appendWaiting slot) w
  if fresh then coverDemandSet e ramp w
  else if escalates x u && st == .prewarn && timerDue e.now (tget w.boundaries b).prewarnEnd then coverPrewarnEnds e b w
  else w

/-- A closure order of a slot applied to a boundary whose waiting list is not full (R104, R115). -/
def closeOne (e : Env) (slot : Nat) (u : Demand) (b : Nat) (w : Work) : Work :=
  if (boundaryConfig e.ram b).isDoor then closeDoor e b slot u w else closeCover e b slot u w

/-- The waiting list of a boundary holds 8 slots. -/
def waitingFull (d : Deck) (b : Nat) : Bool := decide (8 ≤ (tget d.boundaries b).waiting.length)

/-- CLOSE BOUNDARY at the boundary unit (R104). -/
def closeBoundaryOrder (e : Env) (b slot : Nat) (urgency : Nat) (w : Work) : Work :=
  match urgencyOf urgency with
  | none => complete slot .refusedTarget (boundaryDetail (tget w.boundaries b)) w
  | some u =>
    if waitingFull w.toDeck b then complete slot .refusedBusy (boundaryDetail (tget w.boundaries b)) w
    else closeOne e slot u b w

/-- CLOSE ZONE at the boundary unit (R120). The order completes at the end of the event when no waiting list holds it. Of several
boundaries with a full waiting list, REFUSED-BUSY names the first in adjacency entry order (log entry 47). -/
def closeZoneOrder (e : Env) (z slot : Nat) (urgency : Nat) (w : Work) : Work :=
  let bs := zoneBoundaries e.ram z
  match urgencyOf urgency with
  | none => complete slot .refusedTarget [] w
  | some u =>
    if bs.isEmpty then complete slot .refusedTarget [] w
    else
      match bs.find? fun b => waitingFull w.toDeck b with
      | some b => complete slot .refusedBusy [byteOf b] w
      | none => each bs (fun b w => closeOne e slot u b w) (modZoneOrder slot (fun _ => { inHand := true }) w)

/-! ## RELEASE BOUNDARY (R111, R119) -/

/-- A released cover (R119): the ramp channel is told, and the state follows the ramp without a demand. -/
def releaseCover (e : Env) (b : Nat) (w : Work) : Work :=
  let u := (boundaryConfig e.ram b).ramp
  let w := coverDemandCleared e u w
  enterBoundary b (coverAtRest (rampOf w.toDeck u).state) w

/-- RELEASE BOUNDARY at the boundary unit (R111). -/
def releaseOrder (e : Env) (b slot : Nat) (w : Work) : Work :=
  let w :=
    if (tget w.boundaries b).demand = .none then w
    else
      let w := releaseOrders b w
      if (boundaryConfig e.ram b).isDoor then releaseDoor e b w else releaseCover e b w
  complete slot .ok [] w

/-! ## FORCE COVER (R118) -/

/-- FORCE COVER at the boundary unit (R118). -/
def forceOrder (e : Env) (b slot : Nat) (w : Work) : Work :=
  if !(boundaryConfig e.ram b).isCover then complete slot .refusedTarget [] w
  else
    match (tget w.boundaries b).state with
    | .blocked =>
      match requestRaise e b w with
      | (none, w) => complete slot .ok [] w
      | (some code, w) => complete slot .refusedInterlock [byteOf code] w
    | .closing | .closed => complete slot .ok [] w
    | .unknown | .opened | .prewarn | .reversing | .passage | .failed => complete slot .refusedBusy [] w

end Sys2Proof.Machine
end

