-- ==== Sys2Proof/Machine/RampReports.lean ====
section
/-! DEFINITION. What a ramp channel does with the reports of the station unit (R46): samples (R53 to R66), switches (R73,
R81, R82, R90, R94) and panel buttons (R84, R85, R88, R89, R92, R95). -/

namespace Sys2Proof.Machine

/-! ## Samples (R53, R54, R60) -/

/-- The rail fault (R54). -/
def railFault (e : Env) (u raw : Nat) (w : Work) : Work :=
  let w := raiseRamp e u .sensorRail (BitVec.ofNat 16 raw) w
  let st := (rampOf w.toDeck u).state
  if st.moves then faultRamp e u .sensorRail w
  else if st = .landed then modRamp u (fun r => { r with permit := false }) w
  else w

/-- A rail sample (R54). -/
def railSample (e : Env) (u raw : Nat) (w : Work) : Work :=
  if 3 ≤ (rampOf w.toDeck u).railRun then w
  else
    let w := modRamp u (fun r => { r with railRun := r.railRun + 1 }) w
    if (rampOf w.toDeck u).railRun = 3 then railFault e u raw w else w

/-- Steps 3 to 7 of R60: the verdict on a driven sample, the state change it calls for, and the entry of the sample in the
history. A ramp that is AT TARGET leaves at step 3, so the sample is the first entry of the new phase; a faulted sample is
entered before FAULTED empties the history again (log entry 26). -/
def drivenStep (e : Env) (u : Nat) (stamp : Stamp) (w : Work) : Work :=
  let c := rampConfig e.ram u
  let r := rampOf w.toDeck u
  if r.state.drives then
    let p := drivenSample c (rampSwitch e u 3 w.toDeck) (rampSwitch e u 0 w.toDeck) r
    let w := modRamp u (fun _ => p.1) w
    match p.2 with
    | .goOn => modRamp u (enterSample stamp) w
    | .atTarget => modRamp u (enterSample stamp) (endMovementIn e u .held .target .ok 0 w)
    | .fault reason => faultRamp e u reason (modRamp u (enterSample stamp) w)
  else modRamp u (enterSample stamp) w

/-- Step 8 of R60: the drift checks of a landed ramp (R65, R66), and the traffic limit (R90). FLOAT DRIFT and FLOAT LIMIT are
raised before RAMP FAULT with detail 14 STEEP; R146 lets either of two raises on one cell come first (log entry 38). -/
def driftStep (e : Env) (u : Nat) (w : Work) : Work :=
  let c := rampConfig e.ram u
  let r := rampOf w.toDeck u
  if r.state ≠ .landed then w
  else
    let n := driftFlags c r
    let detail := angleWord (driftOf r)
    let crossed := n.driftLimit && !r.driftLimit
    let steep := !withinTraffic c r
    let w := modRamp u
      (fun _ => { n with permit := r.permit && !crossed && !steep, driftWant := r.driftWant || crossed }) w
    let w := if n.driftWarned && !r.driftWarned then raiseRamp e u .floatDrift detail w else w
    let w := if crossed then raiseRamp e u .floatLimit detail w else w
    if steep && r.permit then raiseRamp e u .rampFault (detailWord 14 0) w else w

/-- An accepted sample (R60, steps 1 to 8). -/
def acceptedSample (e : Env) (u raw : Nat) (stamp : Stamp) (w : Work) : Work :=
  driftStep e u (drivenStep e u stamp (modRamp u (acceptSample (rampConfig e.ram u) raw stamp) w))

/-- The sample word of a report (R53): a sample is new when its sequence differs from the last or the last is absent. -/
def takeSample (e : Env) (u : Nat) (r : StationReport) (w : Work) : Work :=
  if (rampOf w.toDeck u).lastSequence = some r.first then w
  else
    let w := modRamp u (fun x => { x with lastSequence := some r.first }) w
    if atRail r.second then railSample e u r.second w else acceptedSample e u r.second r.stamp w

/-! ## Switches -/

/-- A ramp leaves UNKNOWN by its confirmed switches (R73). -/
def leaveUnknown (e : Env) (u : Nat) (w : Work) : Work :=
  if ¬ ((stationOf w.toDeck (rampConfig e.ram u).station).established ∧ (rampOf w.toDeck u).angleValid) then w
  else if fullyStowed e u w.toDeck then enterState e u .stowed .none w
  else if rampSwitch e u 3 w.toDeck then enterState e u .landed .none w
  else enterState e u .held .start w

/-- STOWED with STOWED or PINS LOCKED confirmed clear: HELD with reason SWITCHES, and RAMP FAULT (R94). -/
def lostSwitches (e : Env) (u : Nat) (w : Work) : Work :=
  if (rampOf w.toDeck u).state = .stowed then
    raiseRamp e u .rampFault (detailWord Reason.switches.code 0) (enterState e u .held .switches w)
  else w

/-- PINS UNLOCKED is confirmed set (R81). -/
def pinsUnlocked (e : Env) (u : Nat) (w : Work) : Work :=
  let r := rampOf w.toDeck u
  if r.state ≠ .unlocking then w
  else if r.movement == .lowerLand && rampSwitch e u 3 w.toDeck then finishMovement u .ok 0 (landRamp e u w)
  else enterLowering e u w

/-- TIP CONTACT is confirmed set (R82). -/
def tipContact (e : Env) (u : Nat) (w : Work) : Work :=
  if (rampOf w.toDeck u).state = .lowering then finishMovement u .ok 0 (landRamp e u w) else w

/-- TIP CONTACT is confirmed clear in LANDED (R90). -/
def tipLost (e : Env) (u : Nat) (w : Work) : Work :=
  let r := rampOf w.toDeck u
  if r.state = .landed then raiseRamp e u .tipLost (angleWord r.angle) (enterState e u .held .tipLost w) else w

/-- STOWED is confirmed set (R82). -/
def stowedSet (e : Env) (u : Nat) (w : Work) : Work :=
  if (rampOf w.toDeck u).state ≠ .raising then w
  else if rampSwitch e u 1 w.toDeck then endMovementIn e u .stowed .none .ok 0 w
  else enterState e u .locking .none w

/-- PINS LOCKED is confirmed set (R81). -/
def pinsLocked (e : Env) (u : Nat) (w : Work) : Work :=
  if (rampOf w.toDeck u).state = .locking then endMovementIn e u .stowed .none .ok 0 w else w

/-- Step 9 of R60: the switch changes of a Reply report. -/
def switchChanges (e : Env) (u : Nat) (r : StationReport) (w : Work) : Work :=
  let w := if r.confirmsSet 2 then pinsUnlocked e u w else w
  let w := if r.confirmsSet 3 then tipContact e u w else w
  let w := if r.confirmsClear 3 then tipLost e u w else w
  let w := if r.confirmsSet 0 then stowedSet e u w else w
  let w := if r.confirmsSet 1 then pinsLocked e u w else w
  if r.confirmsClear 0 || r.confirmsClear 1 then lostSwitches e u w else w

/-- A report of the station unit on a ramp station (R53, R60, R73, R94). -/
def rampStationReport (e : Env) (u : Nat) (r : StationReport) (w : Work) : Work :=
  let w := takeSample e u r w
  if (rampOf w.toDeck u).state = .unknown then leaveUnknown e u w
  else
    match r.kind with
    | .reply => switchChanges e u r w
    | .established => if fullyStowed e u w.toDeck then w else lostSwitches e u w
    | .unconfirmed => w

/-! ## The panel (R84, R85, R88, R89) -/

/-- DEADMAN is let go in a motion state under LOCAL control (R84). -/
def deadmanReleased (e : Env) (u : Nat) (w : Work) : Work :=
  let r := rampOf w.toDeck u
  if r.state.moves ∧ r.control = .atPanel then
    raisePanel e u .deadmanReleased (detailWord r.state.code 0)
      (modRamp u (fun x => { x with resume := some r.state, resumeTimer := some (after e.now 60000) })
        (enterState e u .held .deadman w))
  else w

/-- A state entered again after a deadman hold (R84). -/
def reenter (e : Env) (u : Nat) (st : RampState) (w : Work) : Work :=
  if st = .lowering then enterLowering e u w else enterState e u st .none w

/-- The request button of a direction. -/
def requestInput (lowers : Bool) : Nat := if lowers then 0 else 1

/-- A deadman hold is taken up again (R84): the button of the direction and DEADMAN are both confirmed set, and the report
changed one of them. -/
def resumeHold (e : Env) (u : Nat) (r : StationReport) (w : Work) : Work :=
  let x := rampOf w.toDeck u
  let button := requestInput x.movement.lowers
  if x.deadmanHeld && x.busy && panelButton e u button w.toDeck && panelButton e u 2 w.toDeck &&
      (r.confirmsSet button || r.confirmsSet 2) then
    match interlockInHand e u w.toDeck with
    | some code => finishMovement u .refusedInterlock code w
    | none =>
      match x.resume with
      | some st => modRamp u (fun x => { x with resume := none }) (reenter e u st w)
      | none => w
  else w

/-- PANEL REQUEST (R88, R89, R96): the direction in the low byte, the answer in the high byte. -/
def raisePanelRequest (e : Env) (u : Nat) (lowers : Bool) (answer : Nat) (w : Work) : Work :=
  raisePanel e u .panelRequest (detailWord (if lowers then 1 else 2) answer) w

/-- A pending request with its stamp (R88). -/
def recordRequest (e : Env) (u : Nat) (lowers : Bool) (timer : Option Stamp) (w : Work) : Work :=
  modRamp u
    (fun r => { r with request := if lowers then .lower else .raise, requestStamp := e.now, requestTimer := timer }) w

/-- A panel request that the ramp channel answers at once (R89). -/
def answerLocally (e : Env) (u : Nat) (lowers : Bool) (w : Work) : Work :=
  let c := rampConfig e.ram u
  let m : Movement := if lowers then .lowerLand else .raise
  let target := targetOf c m 0
  match interlock e u true m .atPanel target w.toDeck with
  | some code => raisePanelRequest e u lowers code w
  | none => raisePanelRequest e u lowers 255 (enterWarning e u ⟨m, .atPanel, .panel, 255, target⟩ w)

/-- A request button confirmed set (R88, R96). -/
def panelRequest (e : Env) (u : Nat) (lowers : Bool) (w : Work) : Work :=
  let r := rampOf w.toDeck u
  if r.busy || !mayStart lowers r.state then w
  else if e.part = .safeHold then raisePanelRequest e u lowers 254 (recordRequest e u lowers none w)
  else if r.request ≠ .none then w
  else if (rampConfig e.ram u).answerMode = 1 then answerLocally e u lowers w
  else raisePanelRequest e u lowers 0 (recordRequest e u lowers (some (after e.now 30000)) w)

/-- The request timer runs out (R88). -/
def requestTimerEnds (u : Nat) (w : Work) : Work := dropRequest u w

/-- The button changes of a Reply report: STOP, DEADMAN, resume or the end of WARNING, and then the requests. -/
def panelChanges (e : Env) (u : Nat) (r : StationReport) (w : Work) : Work :=
  let busy := (rampOf w.toDeck u).busy
  let w := if r.confirmsSet 3 then panelStop e u w else w
  let w := if r.confirmsClear 2 then deadmanReleased e u w else w
  let w := checkWarning e u (resumeHold e u r w)
  if !busy && r.confirmsSet 0 != r.confirmsSet 1 then panelRequest e u (r.confirmsSet 0) w else w

/-- A report of the station unit on a panel station (R95, R92). The occupancy goes to the cover last, after the buttons, so a
report that clears OCCUPIED and confirms a request button makes the request first, and the raise of a BLOCKED cover finds
what it left (R118, log entry 16). -/
def panelStationReport (e : Env) (u : Nat) (r : StationReport) (w : Work) : Work :=
  let w :=
    match r.kind with
    | .reply => panelChanges e u r w
    | .established => checkWarning e u w
    | .unconfirmed => w
  handOccupancy e u w

/-- The panel station falls SILENT (R95, R84). -/
def panelStationSilent (e : Env) (u : Nat) (w : Work) : Work :=
  handOccupancy e u (deadmanReleased e u (dropRequest u w))

end Sys2Proof.Machine
end

