-- ==== Sys2Proof/Machine/Stations.lean ====
section
/-! DEFINITION. The station unit (Chapter 3): line health, switching, silence, confirmed inputs, and the reports to the
units that serve the stations. -/

namespace Sys2Proof.Machine

/-! ## Serving units (R46) -/

/-- The ramps in use that name an address in a station field. -/
def rampsNaming (m : Memory) (field : RampConfig → Nat) (addr : Nat) : List Nat :=
  (List.range 4).filter fun u => (rampConfig m u).inUse && field (rampConfig m u) == addr

/-- The door boundaries that name an address. -/
def doorsNaming (m : Memory) (addr : Nat) : List Nat :=
  (List.range 24).filter fun b => (boundaryConfig m b).isDoor && (boundaryConfig m b).doorStation == addr

/-- A report of the station unit goes to the unit that serves the station, and the call unit's notices follow it. -/
def serveReport (e : Env) (addr : Nat) (r : StationReport) (w : Work) : Work :=
  match (workingOf w.toDeck addr).kind with
  | .none => w
  | .ramp => each (rampsNaming e.ram (fun c => c.station) addr) (fun u w => rampStationReport e u r w) w
  | .panel => each (rampsNaming e.ram (fun c => c.panel) addr) (fun u w => panelStationReport e u r w) w
  | .door => each (doorsNaming e.ram addr) (fun b w => doorReport e b r w) w
  | .call => deliverNotices e (callStationReport e addr r w)

/-- A Silent report (R42, R46). -/
def serveSilent (e : Env) (addr : Nat) (w : Work) : Work :=
  match (workingOf w.toDeck addr).kind with
  | .none => w
  | .ramp => each (rampsNaming e.ram (fun c => c.station) addr) (fun u w => rampStationSilent e u w) w
  | .panel => each (rampsNaming e.ram (fun c => c.panel) addr) (fun u w => panelStationSilent e u w) w
  | .door => each (doorsNaming e.ram addr) (fun b w => doorSilent b w) w
  | .call => deliverNotices e (callStationSilent e addr w)

/-- A Back report (R43, R46): only the call unit acts on it (R113, R94, R95, R141). -/
def serveBack (e : Env) (addr : Nat) (w : Work) : Work :=
  match (workingOf w.toDeck addr).kind with
  | .call => callStationBack e addr w
  | .none | .ramp | .panel | .door => w

/-! ## Health (R39) -/

/-- A miss (R39). -/
def missStanding (s : Standing) : Standing :=
  let run := satAdd 3 s.missRun
  { health := if s.health = .lost ∨ 3 ≤ run then .lost else .doubtful, missRun := run, recoveryRun := 0 }

/-- GOOD for a station that is not SILENT (R39). -/
def goodStanding (s : Standing) : Standing :=
  match s.health with
  | .good | .doubtful => { s with health := .good, missRun := 0 }
  | .lost =>
    if 2 ≤ s.recoveryRun + 1 then { health := .good, missRun := 0, recoveryRun := 0 }
    else { s with missRun := 0, recoveryRun := s.recoveryRun + 1 }

/-- GOOD for a SILENT station (R43): a LOST line becomes DOUBTFUL with its runs at 0. -/
def backStanding (s : Standing) : Standing :=
  match s.health with
  | .lost => { health := .doubtful, missRun := 0, recoveryRun := 0 }
  | .good | .doubtful => goodStanding s

/-- A jam loss (R40). -/
def jamStanding : Standing := { health := .lost, missRun := 3, recoveryRun := 0 }

/-- A station's standing on a line changed by `f`. -/
def modStanding (addr : Nat) (l : LineId) (f : Standing → Standing) (w : Work) : Work :=
  modStation addr (fun s => s.withStanding l (f (s.on l))) w

/-! ## Switching and silence (R41, R42, R32) -/

/-- An address appended to a line's switched-station list, which holds none twice (R32). -/
def appendSwitched (l : LineId) (addr : Nat) (w : Work) : Work :=
  modLine l (fun x => if x.switched.contains addr then x else { x with switched := x.switched ++ [addr] }) w

/-- An address removed from a line's switched-station list (R32). -/
def removeSwitched (l : LineId) (addr : Nat) (w : Work) : Work :=
  modLine l (fun x => { x with switched := x.switched.filter fun a => a != addr }) w

/-- A station becomes SILENT through the loss of a line (R42). STATION SILENT is placed before what the serving unit raises at
the Silent report; R146 lets either come first on one cell (log entry 38). -/
def goSilent (e : Env) (addr : Nat) (l : LineId) (w : Work) : Work :=
  let w := modStation addr
    (fun s => { s with silent := true, established := false, inputs := Vector.replicate 5 {} }) w
  let w := removeSwitched .b addr (removeSwitched .a addr w)
  serveSilent e addr (raiseStation e addr .stationSilent (detailWord (lineNumber l) 0) w)

/-- The current line of a station becomes LOST (R41): it is switched when the other line is RUNNING and not LOST for it, and
otherwise becomes SILENT. -/
def switchOrSilence (e : Env) (addr : Nat) (l : LineId) (w : Work) : Work :=
  let other := flipLine l
  if (lineOf w.toDeck other).state = .running ∧ ((stationOf w.toDeck addr).on other).health ≠ .lost then
    let w := modStation addr (fun s => { s with current := other }) w
    let w := appendSwitched other addr (removeSwitched l addr w)
    raiseStation e addr .lineSwitch (detailWord (lineNumber other) 0) w
  else goSilent e addr l w

/-- A station is on a line and in service there. -/
def servedOn (d : Deck) (addr : Nat) (l : LineId) : Bool :=
  (stationOf d addr).current == l && !(stationOf d addr).silent

/-- A miss on a line (R39, R41). -/
def stationMiss (e : Env) (addr : Nat) (l : LineId) (w : Work) : Work :=
  let was := ((stationOf w.toDeck addr).on l).health
  let w := modStanding addr l missStanding w
  if was ≠ .lost ∧ ((stationOf w.toDeck addr).on l).health = .lost ∧ servedOn w.toDeck addr l then
    switchOrSilence e addr l w
  else w

/-- A jam loss (R40). -/
def jamLoss (e : Env) (l : LineId) (addr : Nat) (w : Work) : Work :=
  let w := modStanding addr l (fun _ => jamStanding) w
  if servedOn w.toDeck addr l then switchOrSilence e addr l w else w

/-- A move under ISOLATE LINE from line `l` (R27, R40). The detail of STATION SILENT is the new current line, on which the station
is LOST (R42, log entry 39). -/
def moveStation (e : Env) (l : LineId) (addr : Nat) (w : Work) : Work :=
  let other := flipLine l
  let w := modStation addr (fun s => { s with current := other }) w
  let w :=
    if (stationOf w.toDeck addr).silent then w
    else if ((stationOf w.toDeck addr).on other).health = .lost then goSilent e addr other w
    else appendSwitched other addr w
  if (lineOf w.toDeck other).state = .jammed then jamLoss e other addr w else w

/-! ## Confirmed inputs (R44, R45) -/

/-- How many discrete inputs a kind has (3.4). -/
def inputCount : StationKind → Nat
  | .none => 0
  | .ramp | .panel | .door => 5
  | .call => 1

/-- The input byte of a reply payload and the bit of its first input (R18). -/
def inputBits : StationKind → List Byte → Byte
  | .ramp, p => p.getD 2 0
  | .panel, p | .door, p => p.getD 0 0
  | .call, p => p.getD 1 0
  | .none, _ => 0

/-- The bit position of an input in the input byte of a kind (R18, 3.8.1). -/
def inputBit (k : StationKind) (i : Nat) : Nat := if k = .call then 7 else i

/-- The four first-report changes (R45): EDGE set, STOP set, DEADMAN clear, TIP CONTACT clear. -/
def firstReport (k : StationKind) (i : Nat) (value : Bool) : Bool :=
  match k with
  | .door => i == 2 && value
  | .panel => (i == 3 && value) || (i == 2 && !value)
  | .ramp => i == 3 && !value
  | .none | .call => false

/-- One input of a GOOD reply (R44). -/
def confirmInput (atOnce : Bool) (value : Bool) (c : InputCell) : InputCell :=
  if c.confirmed = some value then { c with pendingValue := none }
  else if (atOnce && c.confirmed.isSome) || c.pendingValue == some value then
    { confirmed := some value, pendingValue := none }
  else { c with pendingValue := some value }

/-- The inputs of a station after a GOOD reply (R44). -/
def confirmInputs (k : StationKind) (bits : Byte) (cells : Vector InputCell 5) : Vector InputCell 5 :=
  tabulate 5 fun i =>
    let value := bits.getLsbD (inputBit k i)
    if i < inputCount k then confirmInput (firstReport k i value) value (tget cells i) else tget cells i

/-- The inputs whose confirmed value changed, with the new values. -/
def changedInputs (old new : Vector InputCell 5) : List (Nat × Bool) :=
  (List.range 5).filterMap fun i =>
    match (tget new i).confirmed with
    | some v => if (tget old i).confirmed = some v then none else some (i, v)
    | none => none

/-- Every confirmed input with its value. -/
def confirmedInputs (cells : Vector InputCell 5) : List (Nat × Bool) :=
  (List.range 5).filterMap fun i => (tget cells i).confirmed.map fun v => (i, v)

/-- Every discrete input of the kind has a confirmed value (R45). -/
def allConfirmed (k : StationKind) (cells : Vector InputCell 5) : Bool :=
  (List.range (inputCount k)).all fun i => (tget cells i).confirmed.isSome

/-- The published byte with the changed inputs written into it (3.8.1). -/
def publishInputs (k : StationKind) (changes : List (Nat × Bool)) (published : Byte) : Byte :=
  changes.foldl
    (fun acc c =>
      let bit := BitVec.twoPow 8 (inputBit k c.1)
      if c.2 then acc ||| bit else acc &&& ~~~ bit) published

/-- The unconfirmed values of a reply (R18): sequence and raw count, or playing message id and completion count. -/
def replyValues (k : StationKind) (p : List Byte) : Nat × Nat :=
  match k with
  | .ramp =>
    let sample := (p.getD 0 0).toNat * 256 + (p.getD 1 0).toNat
    (sample / 4096, sample % 4096)
  | .call => ((p.getD 0 0).toNat % 64, (p.getD 1 0).toNat % 16)
  | .none | .panel | .door => (0, 0)

/-- The report that a GOOD reply calls for, if any (R46). -/
def reportOf (k : StationKind) (wasEstablished established : Bool) (changes all : List (Nat × Bool)) (values : Nat × Nat)
    (stamp : Stamp) : Option StationReport :=
  let carries := k == .ramp || k == .call
  if established && !wasEstablished then some ⟨.established, all, values.1, values.2, stamp⟩
  else if established && (carries || !changes.isEmpty) then some ⟨.reply, changes, values.1, values.2, stamp⟩
  else if !established && carries then some ⟨.unconfirmed, [], values.1, values.2, stamp⟩
  else none

/-- The inputs of a GOOD reply are confirmed and reported (R44 to R46). -/
def takeInputs (e : Env) (addr : Nat) (payload : List Byte) (stamp : Stamp) (w : Work) : Work :=
  let k := (workingOf w.toDeck addr).kind
  let s := stationOf w.toDeck addr
  let cells := confirmInputs k (inputBits k payload) s.inputs
  let changes := changedInputs s.inputs cells
  let established := s.established || allConfirmed k cells
  let w := modStation addr
    (fun s => { s with inputs := cells, established := established, published := publishInputs k changes s.published }) w
  match reportOf k s.established established changes (confirmedInputs cells) (replyValues k payload) stamp with
  | some r => serveReport e addr r w
  | none => w

/-- A GOOD exchange in RUNNING (R39, R43 to R46, R50). -/
def stationGood (e : Env) (addr : Nat) (l : LineId) (payload : List Byte) (w : Work) : Work :=
  let w := modStation addr (fun s => { s with lastReply := e.now }) w
  let w :=
    if (stationOf w.toDeck addr).silent then
      let w := modStanding addr l backStanding w
      let w := modStation addr (fun s => { s with silent := false, current := l }) w
      serveBack e addr (raiseStation e addr .stationBack (detailWord (lineNumber l) 0) w)
    else modStanding addr l goodStanding w
  takeInputs e addr payload e.now w

/-- The outcome of an exchange in RUNNING reaches the station unit (R22, R39). -/
def stationOutcome (e : Env) (addr : Nat) (l : LineId) (o : ExchangeOutcome) (payload : List Byte) (w : Work) : Work :=
  if o = .good then stationGood e addr l payload w else stationMiss e addr l w

/-! ## TEST STATION (R49) -/

/-- The detail of a completed TEST STATION (R49). -/
def testDetail (code : Nat) (l : LineId) (payload : List Byte) (stamp : Stamp) : List Byte :=
  [byteOf code, byteOf (lineNumber l), byteOf payload.length] ++ (payload ++ List.replicate 8 0).take 8 ++ stampBytes stamp

/-- A test exchange ends with an outcome (R49). -/
def testOutcome (e : Env) (slot : Nat) (l : LineId) (o : ExchangeOutcome) (payload : List Byte) (w : Work) : Work :=
  complete slot .ok (testDetail o.code l (if o = .good then payload else []) e.now) w

/-- A test request ends with line busy (R29, R49). -/
def testBusy (e : Env) (l : LineId) (slot : Nat) (w : Work) : Work :=
  complete slot .ok (testDetail 9 l [] e.now) w

/-! ## Transitions (R51) -/

/-- The status of a station at START SERVICE (R51). -/
def stationStart (c : StationConfig) (s : Station) : Station :=
  { edition := s.edition, muted := s.muted, mutedCount := s.mutedCount,
    current := if c.kind = .none then s.current else c.homeLine }

/-- The status of a station at ENTER SETUP (R51). -/
def stationToSetup (s : Station) : Station :=
  { s with established := false, inputs := Vector.replicate 5 {} }

/-- The status of a station at bridge reset (R51). -/
def stationBridgeReset (c : StationConfig) (s : Station) : Station :=
  { edition := s.edition, current := c.homeLine }

/-- The neutral output records of every configured station (R47, R51). -/
def neutralOutputs (kind : Nat → StationKind) (w : Work) : Work :=
  { w with outputs := tabulate 48 fun i => neutralOutput (kind (i + 1)) }

end Sys2Proof.Machine
end

