-- ==== Sys2Proof/Machine/Lines.lean ====
section
/-! DEFINITION. The line controllers (Chapter 2): poll exchanges, line states, rotations and slots, and error counts. -/

namespace Sys2Proof.Machine

/-! ## Rotations (R30) -/

/-- The station addresses, ascending. -/
def addresses : List Nat := (List.range 48).map fun i => i + 1

/-- The station at an address has a kind other than NONE in the working copy. -/
def configured (d : Deck) (addr : Nat) : Bool := (workingOf d addr).kind != .none

/-- The rotation class of an address (R30). -/
def classOf (d : Deck) (addr : Nat) : Rotation := tget d.classes (stationIndex addr)

/-- The station is a re-probe member of line `l`'s SLOW rotation: it is SILENT, or LOST on `l` while the other line is
current (R30). -/
def reprobed (d : Deck) (l : LineId) (addr : Nat) : Bool :=
  let s := stationOf d addr
  s.silent || (s.current != l && (s.on l).health == .lost)

/-- The members of a line's FAST rotation, ascending (R30). -/
def fastRotation (d : Deck) (l : LineId) : List Nat :=
  addresses.filter fun n => configured d n && servedOn d n l && classOf d n == .fast

/-- The members of a line's SLOW rotation, ascending (R30). -/
def slowRotation (d : Deck) (l : LineId) : List Nat :=
  addresses.filter fun n => configured d n && ((servedOn d n l && classOf d n == .slow) || reprobed d l n)

/-! ## Slot choice (R31, R32) -/

/-- The member with the lowest address above the cursor, or the lowest of all (R31). -/
def nextMember (members : List Nat) (cursor : Nat) : Option Nat :=
  (members.find? fun n => decide (cursor < n)).or members.head?

/-- A choice of a slot: the station, the pattern that its exchange leaves, and the switched-station list that remains. -/
structure SlotChoice where
  addr     : Nat
  next     : Pattern
  switched : List Nat
  deriving DecidableEq, Repr

/-- The next slot of a RUNNING line (R31, R32). -/
def chooseSlot (fast slow switched : List Nat) (p : Pattern) : Option SlotChoice :=
  match switched with
  | n :: rest => some ⟨n, p, rest⟩
  | [] =>
    match nextMember fast p.fastCursor, nextMember slow p.slowCursor with
    | some f, some s =>
      if p.fastSlots < 3 then some ⟨f, { p with fastSlots := p.fastSlots + 1, fastCursor := f }, []⟩
      else some ⟨s, { p with fastSlots := 0, slowCursor := s }, []⟩
    | some f, none =>
      if p.fastSlots < 3 then some ⟨f, { p with fastSlots := p.fastSlots + 1, fastCursor := f }, []⟩
      else some ⟨f, { p with fastSlots := 0, fastCursor := f }, []⟩
    | none, some s => some ⟨s, { p with fastSlots := 0, slowCursor := s }, []⟩
    | none, none => none

/-- The exchange of a chosen slot, in its idle wait (R19). -/
def slotExchange (d : Deck) (rate : Nat) (c : SlotChoice) : Exchange :=
  { addr := c.addr, kind := (workingOf d c.addr).kind, rate := rate, next := c.next, test := none, phase := .idleWait }

/-- The outputs that a POLL carries (R17, R47): neutral in a test exchange, and the output record otherwise. -/
def pollOutput (d : Deck) (x : Exchange) : Output :=
  if x.test.isSome then neutralOutput x.kind else outputOf d x.addr

/-- The POLL is formed and its sending begins (R19, R13). -/
def sendPoll (d : Deck) (x : Exchange) (line : Line) : Line :=
  { line with activity := .exchange { x with phase := .poll (pollFrame x.addr (pollOutput d x)) }, driver := true,
              pattern := x.next }

/-- A RUNNING line with nothing in hand chooses its next slot and begins its idle wait (R31, R19). -/
def beginSlot (l : LineId) (w : Work) : Work :=
  let line := lineOf w.toDeck l
  if line.state = .running ∧ line.activity = .quiet then
    match chooseSlot (fastRotation w.toDeck l) (slowRotation w.toDeck l) line.switched line.pattern with
    | some c =>
      modLine l (fun x => { x with activity := .exchange (slotExchange w.toDeck x.rate c), switched := c.switched }) w
    | none => w
  else w

/-- The rate of a test exchange (R13). -/
def testRate (m : Memory) : Nat := if lineRateCode m ≤ 2 then lineRateCode m else 0

/-- An IDLE line with nothing in hand begins its next test exchange (R29), unless a START SERVICE is TAKEN. -/
def beginTest (e : Env) (l : LineId) (w : Work) : Work :=
  let line := lineOf w.toDeck l
  if line.state = .idle ∧ line.activity = .quiet ∧ ¬ e.starting then
    match line.tests with
    | t :: rest =>
      modLine l
        (fun x => { x with tests := rest,
                           activity := .exchange { addr := t.addr, kind := t.kind, rate := testRate e.ram, next := x.pattern,
                                                   test := some t.slot, phase := .idleWait } }) w
    | [] => w
  else w

/-- The member counts that a line publishes (R30, R33). -/
def countMembers (l : LineId) (w : Work) : Work :=
  let idle := (lineOf w.toDeck l).state == .idle
  modLine l
    (fun x => { x with fastMembers := if idle then 0 else (fastRotation w.toDeck l).length,
                       slowMembers := if idle then 0 else (slowRotation w.toDeck l).length }) w

/-- What a line controller does at the end of every event: it publishes its member counts and begins its next exchange. -/
def settleLine (e : Env) (l : LineId) (w : Work) : Work := beginTest e l (beginSlot l (countMembers l w))

/-! ## Line states (R24 to R28) -/

/-- The line enters a state (R24). -/
def enterLineState (e : Env) (l : LineId) (st : LineState) (w : Work) : Work :=
  modLine l (fun x => { x with state := st, stateStamp := e.now }) w

/-- The stations whose current line is `l`, ascending. -/
def stationsOn (d : Deck) (l : LineId) : List Nat :=
  addresses.filter fun n => configured d n && (stationOf d n).current == l

/-- The idle wait of an exchange in RUNNING fails (R25): the line enters JAMMED and hands out its jam losses. -/
def jamLine (e : Env) (l : LineId) (w : Work) : Work :=
  let w := enterLineState e l .jammed w
  let w := modLine l
    (fun x => { x with activity := .quiet, switched := [], jamCount := satAdd 65535 x.jamCount,
                       retryAt := after e.now 1000 }) w
  let lost := stationsOn w.toDeck l
  raiseLine e l .lineJammed (BitVec.ofNat 16 lost.length) (each lost (fun n w => jamLoss e l n w) w)

/-- The line's work in hand is abandoned (R23): of a POLL being sent the character in hand is completed. -/
def abandonActivity (x : Line) : Line :=
  let sending :=
    match x.activity with
    | .exchange y => match y.phase with
      | .poll _ => true
      | .idleWait | .replyWait | .reception _ => false
    | .quiet | .retry => false
  { x with activity := .quiet, releasing := x.releasing || sending }

/-- ISOLATE LINE at a line controller (R27). -/
def isolateOrder (e : Env) (l : LineId) (slot : Nat) (w : Work) : Work :=
  let other := (lineOf w.toDeck (flipLine l)).state
  if other = .isolated ∨ other = .idle then complete slot .refusedBusy [] w
  else if (lineOf w.toDeck l).state = .isolated then complete slot .ok [] w
  else
    let w := modLine l (fun x => { abandonActivity x with switched := [] }) (enterLineState e l .isolated w)
    complete slot .ok [] (each (stationsOn w.toDeck l) (fun n w => moveStation e l n w) w)

/-- RESTORE LINE at a line controller (R28). -/
def restoreOrder (e : Env) (l : LineId) (slot : Nat) (w : Work) : Work :=
  let w :=
    if (lineOf w.toDeck l).state = .isolated then
      modLine l (fun x => { x with pattern := {} }) (enterLineState e l .running w)
    else w
  complete slot .ok [] w

/-! ## The exchange (R19 to R22) -/

/-- The line has been idle for 20 bit times (R19, R26). -/
def idleWaitSucceeds (e : Env) (l : LineId) (w : Work) : Work :=
  let line := lineOf w.toDeck l
  if line.releasing then w
  else
    match line.activity with
    | .exchange x => match x.phase with
      | .idleWait => modLine l (sendPoll w.toDeck x) w
      | .poll _ | .replyWait | .reception _ => w
    | .retry =>
      let w := enterLineState e l .running w
      match chooseSlot (fastRotation w.toDeck l) (slowRotation w.toDeck l) line.switched line.pattern with
      | some c =>
        modLine l (fun y => { sendPoll w.toDeck (slotExchange w.toDeck y.rate c) y with switched := c.switched }) w
      | none => modLine l (fun y => { y with activity := .quiet }) w
    | .quiet => w

/-- The idle wait has lasted 10 ms (R25, R26, R29). -/
def idleWaitFails (e : Env) (l : LineId) (w : Work) : Work :=
  match (lineOf w.toDeck l).activity with
  | .exchange x => match x.phase with
    | .idleWait =>
      match x.test with
      | some slot => testBusy e l slot (modLine l (fun y => { y with activity := .quiet }) w)
      | none => jamLine e l w
    | .poll _ | .replyWait | .reception _ => w
  | .retry => modLine l (fun y => { y with activity := .quiet }) w
  | .quiet => w

/-- A retry of a JAMMED line begins (R26). -/
def retryBegins (e : Env) (l : LineId) (w : Work) : Work :=
  let line := lineOf w.toDeck l
  if line.state = .jammed ∧ line.activity = .quiet ∧ reached e.now line.retryAt then
    modLine l (fun x => { x with activity := .retry, retryAt := after e.now 1000 }) w
  else w

/-- The exchange of a line, when it is in a phase that `p` names. -/
def exchangeIn (d : Deck) (l : LineId) (p : Phase → Bool) : Option Exchange :=
  match (lineOf d l).activity with
  | .exchange x => if p x.phase then some x else none
  | .quiet | .retry => none

/-- The poll phase. -/
def Phase.isPoll : Phase → Bool
  | .poll _ => true
  | .idleWait | .replyWait | .reception _ => false

/-- The reply wait. -/
def Phase.isReplyWait : Phase → Bool
  | .replyWait => true
  | .idleWait | .poll _ | .reception _ => false

/-- The reception. -/
def Phase.isReception : Phase → Bool
  | .reception _ => true
  | .idleWait | .poll _ | .replyWait => false

/-- The exchange in hand moves to a phase. -/
def enterPhase (l : LineId) (x : Exchange) (p : Phase) (w : Work) : Work :=
  modLine l (fun y => { y with activity := .exchange { x with phase := p } }) w

/-- The last stop bit of the POLL has been sent: the driver is released and the reply wait begins (R13, R20). -/
def pollEnds (l : LineId) (w : Work) : Work :=
  match exchangeIn w.toDeck l Phase.isPoll with
  | some x => enterPhase l x .replyWait (modLine l (fun y => { y with driver := false }) w)
  | none => w

/-- A reply begins (R20, R21). -/
def replyBegins (l : LineId) (w : Work) : Work :=
  match exchangeIn w.toDeck l Phase.isReplyWait with
  | some x => enterPhase l x (.reception (receptionDeadline x.kind x.rate)) w
  | none => w

/-- The error counters after an exchange in RUNNING (R34). -/
def countOutcome (o : ExchangeOutcome) (x : Line) : Line :=
  match o with
  | .good => x
  | .parity => { x with parityCount := satAdd 65535 x.parityCount }
  | .framing => { x with framingCount := satAdd 65535 x.framingCount }
  | .crc => { x with crcCount := satAdd 65535 x.crcCount }
  | .noReply => { x with noReplyCount := satAdd 65535 x.noReplyCount }
  | .truncated => { x with truncatedCount := satAdd 65535 x.truncatedCount }
  | .badHead | .wrongAddress | .wrongLength => { x with otherCount := satAdd 65535 x.otherCount }

/-- The error block after an exchange in RUNNING (R35). -/
def countBlock (o : ExchangeOutcome) (x : Line) : Line :=
  let misses := if o = .good then x.blockMisses else x.blockMisses + 1
  if x.blockPosition < 255 then { x with blockPosition := x.blockPosition + 1, blockMisses := misses }
  else
    { x with blockPosition := 0, blockMisses := 0, lastBlockMisses := misses, blocks := x.blocks + 1,
             errorBlocks := if 16 < misses then satAdd 65535 x.errorBlocks else x.errorBlocks }

/-- An exchange in RUNNING is counted, and a bad block raises LINE ERRORS (R34, R35). -/
def countExchange (e : Env) (l : LineId) (o : ExchangeOutcome) (w : Work) : Work :=
  let closes := (lineOf w.toDeck l).blockPosition == 255
  let w := modLine l (fun x => countBlock o (countOutcome o x)) w
  let misses := (lineOf w.toDeck l).lastBlockMisses
  if closes && decide (16 < misses) then raiseLine e l .lineErrors (BitVec.ofNat 16 misses) w else w

/-- An exchange ends with an outcome (R22, R29). -/
def endExchange (e : Env) (l : LineId) (x : Exchange) (o : ExchangeOutcome) (payload : List Byte) (w : Work) : Work :=
  let w := modLine l (fun y => { y with activity := .quiet }) w
  match x.test with
  | some slot => testOutcome e slot l o payload w
  | none => countExchange e l o (stationOutcome e x.addr l o payload w)

/-- No reply has begun within 1.0 ms (R20). -/
def noReplyBegins (e : Env) (l : LineId) (w : Work) : Work :=
  match exchangeIn w.toDeck l Phase.isReplyWait with
  | some x => endExchange e l x .noReply [] w
  | none => w

/-- The reception deadline passes (R21). -/
def deadlinePasses (e : Env) (l : LineId) (w : Work) : Work :=
  match exchangeIn w.toDeck l Phase.isReception with
  | some x => endExchange e l x .truncated [] w
  | none => w

/-- The characters of a reception end the exchange: a faulty one at once, and a complete frame by its class (R21, R22). -/
def receptionEnds (e : Env) (l : LineId) (r : Reception) (w : Work) : Work :=
  match exchangeIn w.toDeck l Phase.isReception with
  | some x =>
    match r with
    | .incomplete => w
    | .faulty o => endExchange e l x o [] w
    | .complete head length payload check =>
      endExchange e l x (classify x.kind x.addr head length payload check) payload w
  | none => w

/-- The character being sent when a POLL was abandoned closes: the driver is released (R23). -/
def releaseDriver (l : LineId) (w : Work) : Work :=
  if (lineOf w.toDeck l).releasing then modLine l (fun x => { x with releasing := false, driver := false }) w else w

/-! ## Test requests (R29) -/

/-- A test request joins a line's list. -/
def requestTest (l : LineId) (t : TestRequest) (w : Work) : Work :=
  modLine l (fun x => { x with tests := x.tests ++ [t] }) w

/-- The test requests still waiting on a line end with line busy (R29, R179). -/
def endTests (e : Env) (l : LineId) (w : Work) : Work :=
  modLine l (fun x => { x with tests := [] })
    (each (lineOf w.toDeck l).tests (fun t w => testBusy e l t.slot w) w)

/-- A test exchange is in flight on a line. -/
def testInFlight (x : Line) : Bool :=
  match x.activity with
  | .exchange y => y.test.isSome
  | .quiet | .retry => false

/-- TEST STATION at the station unit (R49). -/
def testOrder (e : Env) (addr slot : Nat) (line : Nat) (w : Work) : Work :=
  match line with
  | 0 => requestTest .a ⟨addr, tableKind e.ram addr, slot⟩ w
  | 1 => requestTest .b ⟨addr, tableKind e.ram addr, slot⟩ w
  | _ => complete slot .refusedTarget [] w

/-! ## Transitions (R24, R33 to R36) -/

/-- A line at START SERVICE (R31, R32, R34 to R36). -/
def lineStart (e : Env) (x : Line) : Line :=
  { edition := x.edition, state := .running, rate := lineRateCode e.ram, stateStamp := e.now, driver := x.driver,
    releasing := x.releasing }

/-- A line at ENTER SETUP (R23, R33, R36): its counters and its rate are kept. -/
def lineToSetup (e : Env) (x : Line) : Line :=
  { abandonActivity x with state := .idle, stateStamp := e.now, switched := [], pattern := {} }

/-- A line at bridge reset (R23, R29, R33, R36). The state stamp moves with a change of the line state (R24). -/
def lineBridgeReset (e : Env) (x : Line) : Line :=
  { edition := x.edition, driver := x.driver, releasing := (abandonActivity x).releasing,
    stateStamp := if x.state = .idle then x.stateStamp else e.now }

end Sys2Proof.Machine
end

