-- ==== Sys2Proof/Machine/Flags.lean ====
section
/-! DEFINITION. What follows from the state of the units at every moment: the attention summary (R153, R154), the interrupt
pin (R163) and the status lamps (R169). -/

namespace Sys2Proof.Machine

/-- The per-level fresh counts (R153); level `n` has index `n - 1`. -/
def freshCountsOf (cells : Vector AttentionCell 50) : Vector Nat 7 := tabulate 7 fun i => freshAt cells (i + 1)

/-- Some news flag is set whose enable bit is set (R163). -/
def newsPending (s : State) : Bool :=
  (s.orderDone && s.newsEnables.getLsbD 0) || (s.statusEdited && s.newsEnables.getLsbD 1) ||
    (s.stateChanged && s.newsEnables.getLsbD 2) || (s.attentionFlag && s.newsEnables.getLsbD 3)

/-- nBINT is low exactly while the interrupt enable is set and an enabled news flag is set (R163). -/
def interruptPin (s : State) : Bool := !(s.interruptEnable && newsPending s)

/-- Some boundary in use has a closure demand (R169). -/
def anyDemand (m : Memory) (d : Deck) : Bool :=
  (List.range 24).any fun b => (boundaryConfig m b).inUse && (tget d.boundaries b).demand != .none

/-- Some ramp is in a motion state (R169). -/
def anyMotion (d : Deck) : Bool := (List.range 4).any fun u => (tget d.ramps u).state.moves

/-- The condition of a lamp function; a code above 5 has none (R169). -/
def lampLit (s : State) (function : Nat) : Bool :=
  match function with
  | 0 => s.lineA.state == .running
  | 1 => s.lineB.state == .running
  | 2 => s.partState == .safeHold
  | 3 => anyDemand s.ram s.toDeck
  | 4 => anyMotion s.toDeck
  | 5 => s.attentionFlag
  | _ => false

/-- The attention summary taken afresh from the cells (R153 to R155). -/
def withSummary (s : State) : State :=
  { s with freshCounts := freshCountsOf s.cells, nextCell := nextCellOf s.cells, attentionFlag := attentionOf s.ram s.cells }

/-- The output pins taken afresh (R163, R169). -/
def withPins (s : State) : State :=
  { s with nBINT := interruptPin s, st0 := lampLit s (lampFunction s.ram 0), st1 := lampLit s (lampFunction s.ram 1) }

/-- The end of every command while the part runs: the summary and the pins follow the units in the same event. During a
power-on reset and its clear the summary and the pins keep the values of R168. -/
def refresh (s : State) : State :=
  if s.power = .running then withPins (withSummary s) else s

end Sys2Proof.Machine
end

