-- ==== Sys2Proof/Machine/Events.lean ====
section
/-! DEFINITION. The end of an event: what the units hand on and write once every unit has acted (R72, R77, R101, R121,
R126, R161, R175), and the run of one event over the whole machine. -/

namespace Sys2Proof.Machine

/-! ## Boundaries (R100, R101) -/

/-- The boundary's state or demand differs. An event is compared as a whole: a boundary that leaves its state and enters it
again within one event has not moved, so it is not stamped and not reported (R101, log entry 42). -/
def boundaryMoved (a b : Boundary) : Bool := a.state != b.state || a.demand != b.demand

/-- A boundary that an event changed: its stamp and its report to the zone unit (R101), and the outputs of a door (R100). -/
def settleBoundary (e : Env) (old : Deck) (b : Nat) (w : Work) : Work :=
  let was := tget old.boundaries b
  let x := tget w.boundaries b
  let c := boundaryConfig e.ram b
  let w :=
    if boundaryMoved was x then
      boundaryReport e b x.state x.demand (modBoundary b (fun x => { x with stateStamp := e.now }) w)
    else w
  if c.isDoor && (boundaryMoved was x || was.openingMark != x.openingMark) then
    setClass c.doorStation (doorClass x.state)
      (setOutput c.doorStation (.door (driveOf x) (beaconOf x))
        (modBoundary b (fun x => { x with drive := driveOf x, beacon := beaconOf x }) w))
  else w

/-- Every boundary. -/
def settleBoundaries (e : Env) (old : Deck) (w : Work) : Work :=
  each (List.range 24) (settleBoundary e old) w

/-! ## Warning requests and the fire warning handover (R77, R121, 12.3) -/

/-- A ramp channel's warning wants have begun or ended as a whole (R77). -/
def wantsMoved (old new : Deck) (u : Nat) : Bool := (tget old.ramps u).wants != (tget new.ramps u).wants

/-- The ramp channels' requests for their warning records (R77, R130). -/
def warningRequests (e : Env) (old : Deck) (w : Work) : Work :=
  each ((List.range 4).filter fun u => wantsMoved old w.toDeck u)
    (fun u w => if (tget w.ramps u).wants then startWarning e u w else endWarning e u w) w

/-- The handover of the boundary unit (R121): the sets are recomputed and their changes handed to the call unit. -/
def fireRequests (e : Env) (old : Deck) (w : Work) : Work :=
  let n := fireSet e w.toDeck .normal
  let m := fireSet e w.toDeck .emergency
  fireHandover e (old.fireNormal &&& ~~~ n) (old.fireEmergency &&& ~~~ m) (n &&& ~~~ old.fireNormal)
    (m &&& ~~~ old.fireEmergency) { w with fireNormal := n, fireEmergency := m }

/-- The fire warning sets have changed. -/
def fireMoved (e : Env) (old : Deck) (w : Work) : Bool :=
  fireSet e w.toDeck .normal != old.fireNormal || fireSet e w.toDeck .emergency != old.fireEmergency

/-- The ramp channels' requests and the boundary unit's handover. When one event has both, they may reach the call unit in
either order (12.3): the order is the free value of log entry 6. -/
def callRequests (e : Env) (old : Deck) (w : Work) : Work :=
  let ramps := (List.range 4).any fun u => wantsMoved old w.toDeck u
  if fireMoved e old w then
    if ramps then
      let first := Config.fireHandoverFirst w.races
      let w := { w with races := w.races + 1 }
      if first then warningRequests e old (fireRequests e old w) else fireRequests e old (warningRequests e old w)
    else fireRequests e old w
  else warningRequests e old w

/-! ## Call reports (R8) -/

/-- The call report of a zone whose queue, playing entry or play the event changed (R8). -/
def settleZoneCalls (e : Env) (old : Deck) (z : Nat) (w : Work) : Work :=
  let zc := tget w.zoneCalls z
  let ended := w.playEnded.contains z
  if zc = tget old.zoneCalls z ∧ ¬ ended then w
  else
    let r := playingRecord zc
    callReport z (r.getD 255) ((r.map fun r => (tget w.records r).issue).getD 0) zc.queue.length
      (if ended then some e.now else none) w

/-! ## Ramp outputs (R72) -/

/-- The WAITING lamp: a panel request awaits the bridge (R88, R96). -/
def waitingLamp (r : Ramp) : Bool := r.request != .none && r.requestTimer.isSome

/-- The outputs of the panel station (R72). -/
def panelOutput (r : Ramp) : Output :=
  .panel (r.busy && r.control == .atPanel) (waitingLamp r) r.permit (!r.permit)

/-- The rotation class of a ramp state (5.2). -/
def rampClass : RampState → Rotation
  | .warning | .unlocking | .lowering | .raising | .locking | .faulted => .fast
  | .unknown | .stowed | .landed | .held => .slow

/-- The outputs and classes of a ramp that an event changed (R72). -/
def settleRamp (e : Env) (old : Deck) (u : Nat) (w : Work) : Work :=
  let c := rampConfig e.ram u
  let r := tget w.ramps u
  if c.inUse && r != tget old.ramps u then
    let w := setClass c.station (rampClass r.state) (setOutput c.station (.ramp r.valve r.band) w)
    if c.panel = 0 then w else setClass c.panel (rampClass r.state) (setOutput c.panel (panelOutput r) w)
  else w

/-! ## Rewrites (R9, R36, R50, R70, R101, R126, R145, R161) -/

/-- The published fields of a line, its edition apart (R36). -/
def linePublished (x : Line) : Line :=
  { x with edition := 0, blockPosition := 0, blockMisses := 0, pattern := {}, switched := [], tests := [],
           activity := .quiet, retryAt := 0, driver := false, releasing := false }

/-- The published fields of a station, its edition apart (R50). -/
def stationPublished (x : Station) : Station :=
  { x with edition := 0, onA := { health := x.onA.health }, onB := { health := x.onB.health },
           inputs := Vector.replicate 5 {} }

/-- The published fields of a ramp, its edition apart (R70). -/
def rampPublished (x : Ramp) : Ramp :=
  { x with edition := 0, lastSequence := none, railRun := 0, rawHistory := [], angleHistory := [], wrongRun := 0,
           phaseSamples := 0, driftWarned := false, driftLimit := false, restReason := .none, resume := none,
           motionWant := false, driftWant := false, coverWant := false, prewarnEnd := none, dwell := false,
           playLimit := none, deadmanWait := none, pinsTimer := none, resumeTimer := none, requestTimer := none }

/-- The published fields of a boundary, its edition apart (R101). -/
def boundaryPublished (x : Boundary) : Boundary := { x with edition := 0, reversalEnd := none }

/-- The fields of a call record, its edition apart (R126). -/
def recordPublished (x : CallRecord) : CallRecord := { x with edition := 0 }

/-- The fields of an attention cell, its edition apart (R145). -/
def cellPublished (x : AttentionCell) : AttentionCell := { x with edition := 0 }

/-- The edition after the rewrite of a line status record. -/
def rewriteLine (force : Bool) (old x : Line) : Line :=
  if force ∨ linePublished old ≠ linePublished x then { x with edition := old.edition + 2 } else x

/-- The edition after the rewrite of a station status. A GOOD reply whose stamp is the one held and that changes nothing else
makes no rewrite (R50); neither does a base raise on a muted station whose muted count reads 255 already (R147), nor a matching
take with mute-on-take on a station that is muted already (R151) (log entry 8). -/
def rewriteStation (force : Bool) (old x : Station) : Station :=
  if force ∨ stationPublished old ≠ stationPublished x then { x with edition := old.edition + 2 } else x

/-- The edition after the rewrite of a ramp status. An accepted sample that leaves every published field as it was makes no
rewrite (R60, R70, log entry 8). -/
def rewriteRamp (force : Bool) (old x : Ramp) : Ramp :=
  if force ∨ rampPublished old ≠ rampPublished x then { x with edition := old.edition + 2 } else x

/-- The edition after the rewrite of a boundary status. -/
def rewriteBoundary (force : Bool) (old x : Boundary) : Boundary :=
  if force ∨ boundaryPublished old ≠ boundaryPublished x then { x with edition := old.edition + 2 } else x

/-- The edition after the rewrite of a call record. -/
def rewriteRecord (old x : CallRecord) : CallRecord :=
  if recordPublished old ≠ recordPublished x then { x with edition := old.edition + 2 } else x

/-- The edition after the rewrite of an attention cell. -/
def rewriteCell (force : Bool) (old x : AttentionCell) : AttentionCell :=
  if force ∨ cellPublished old ≠ cellPublished x then { x with edition := old.edition + 2 } else x

/-- Which sections a transition rewrites whether or not a field changes. -/
structure Forced where
  lines    : Bool := false
  sections : Bool := false
  cells    : Bool := false

/-- Every section that the event changed is rewritten once; the zone status is rewritten at its reports (R9). -/
def rewriteSections (force : Forced) (old : Deck) (w : Work) : Work :=
  { w with
    lineA := rewriteLine force.lines old.lineA w.lineA
    lineB := rewriteLine force.lines old.lineB w.lineB
    stations := Vector.zipWith (rewriteStation force.sections) old.stations w.stations
    ramps := Vector.zipWith (rewriteRamp force.sections) old.ramps w.ramps
    boundaries := Vector.zipWith (rewriteBoundary force.sections) old.boundaries w.boundaries
    records := Vector.zipWith rewriteRecord old.records w.records
    cells := Vector.zipWith (rewriteCell force.cells) old.cells w.cells }

/-- The editions of the six kinds of section (R161). -/
def editions (d : Deck) : List Word :=
  [d.lineA.edition, d.lineB.edition] ++ (d.stations.map fun x => x.edition).toList ++
    (d.zones.map fun x => x.edition).toList ++ (d.boundaries.map fun x => x.edition).toList ++
    (d.ramps.map fun x => x.edition).toList ++ (d.records.map fun x => x.edition).toList

/-! ## The whole event -/

/-- What every unit hands on at the end of an event. -/
def closeEvent (e : Env) (old : Deck) (w : Work) : Work :=
  let w := settleBoundaries e old w
  let w := callRequests e old w
  let w := settleRecords e (settleZoneOrders w)
  let w := each (List.range 16) (settleZoneCalls e old) w
  let w := each (List.range 4) (settleRamp e old) w
  let w := settleLine e .b (settleLine e .a w)
  rewriteSections {} old w

/-- A completion report at the order unit (R175). -/
def completeSlot (c : Completion) (s : State) : State :=
  if tget s.hands c.slot ≠ .taken then s
  else if c.result = .ok ∧ slotQuiet s.ram c.slot then { s with hands := tput s.hands c.slot .empty }
  else
    let a := slotBase c.slot
    { s with
      ram := memWriteBytes (memWriteBytes (memWrite s.ram (a + 7) (byteOf c.result.code)) (a + 32) (detailOf c.detail)) (a + 52)
        (stampBytes s.deckClock)
      hands := tput s.hands c.slot .done
      doneCount := s.doneCount + 1
      orderDone := true }

/-- The completion reports of an event, in the order they were made. -/
def completeAll (l : List Completion) (s : State) : State := l.foldl (fun s c => completeSlot c s) s

/-- The machine takes the work of an event: the units' state, STATUS EDITED (R161, R162) and the completions. -/
def absorb (w : Work) (s : State) : State :=
  completeAll w.outbox
    { s with toDeck := w.toDeck, statusEdited := s.statusEdited || editions w.toDeck != editions s.toDeck }

/-- The work with which an event begins. -/
def State.work (s : State) : Work := { toDeck := s.toDeck }

/-- One event of the units: `f` acts, and every unit hands on what follows from it. -/
def runUnits (f : Env → Work → Work) (s : State) : State :=
  refresh (absorb (closeEvent s.env s.toDeck (f s.env s.work)) s)

/-- An event of the units, which act only while the part runs (R168). -/
def unitEvent (f : Env → Work → Work) (s : State) : State :=
  if s.power = .running then runUnits f s else s

end Sys2Proof.Machine
end

