-- ==== Sys2Proof/Machine/Validation.lean ====
section
/-! DEFINITION. The checks of START SERVICE on the configuration (R3, R38, R69, R99, R124, R178). Every check answers the
field code of the first field that fails. -/

namespace Sys2Proof.Machine

/-- The code of the first check of a list that fails. -/
def firstFailing (checks : List (Nat × Bool)) : Option Nat :=
  (checks.find? fun c => !c.2).map fun c => c.1

/-- A value lies in a range. -/
def within (low high n : Nat) : Bool := decide (low ≤ n ∧ n ≤ high)

/-- An angle lies in the range −300 to +900. -/
def angleInRange (x : Int) : Bool := decide (-300 ≤ x ∧ x ≤ 900)

/-- An address whose station record has a kind. -/
def stationOfKind (m : Memory) (addr : Nat) (k : Nat) : Bool :=
  within 1 48 addr && byteAt m (stationBase addr) == k

/-- No record of lower index holds the value in a field. -/
def namedByNoLower (field : Nat → Nat) (i value : Nat) : Bool := (List.range i).all fun j => field j != value

/-- A zone in use. -/
def zoneUsed (m : Memory) (z : Nat) : Bool := decide (z < 16) && (zoneConfig m z).inUse

/-- The station table (R38). -/
def stationFault (m : Memory) (n : Nat) : Option Nat :=
  let a := stationBase n
  firstFailing
    [(1, decide (byteAt m a ≤ 4)), (2, decide (byteAt m (a + 1) ≤ 1)), (3, decide (byteAt m (a + 2) ≤ 7)),
     (4, decide (byteAt m (a + 3) ≤ 1))]

/-- An adjacency entry of a zone in use (R3). -/
def adjacencyOk (m : Memory) (z : Nat) (c : ZoneConfig) (k : Nat) : Bool :=
  let b := c.adjacency.getD k 255
  b == 255 ||
    (decide (b < 24) && !(c.adjacency.take k).contains b &&
      ((boundaryConfig m b).zoneX == z || (boundaryConfig m b).zoneY == z))

/-- The zone table (R3). -/
def zoneFault (m : Memory) (z : Nat) : Option Nat :=
  let c := zoneConfig m z
  if c.deck = 0 then
    firstFailing
      [(2, c.callStation == 0), (3, c.adjacency.getD 0 255 == 255), (4, c.adjacency.getD 1 255 == 255),
       (5, c.adjacency.getD 2 255 == 255), (6, c.adjacency.getD 3 255 == 255), (7, c.ramp == 255)]
  else
    firstFailing
      [(1, c.inUse),
       (2, c.callStation == 0 ||
         (stationOfKind m c.callStation 4 && namedByNoLower (fun j => (zoneConfig m j).callStation) z c.callStation)),
       (3, adjacencyOk m z c 0), (4, adjacencyOk m z c 1), (5, adjacencyOk m z c 2), (6, adjacencyOk m z c 3),
       (7, c.ramp == 255 ||
         (decide (c.ramp < 4) && ((rampConfig m c.ramp).zone == z || (rampConfig m c.ramp).secondZone == z))),
       (8, decide (c.linger ≤ 60))]

/-- A zone that a boundary names: it is in use and lists the boundary (R99). -/
def boundaryZoneOk (m : Memory) (b z : Nat) : Bool := zoneUsed m z && (zoneConfig m z).adjacency.contains b

/-- The boundary table (R99). -/
def boundaryFault (m : Memory) (b : Nat) : Option Nat :=
  let c := boundaryConfig m b
  if c.kind = 0 then
    firstFailing [(2, c.zoneX == 255), (3, c.zoneY == 255), (4, c.doorStation == 0), (5, c.ramp == 255)]
  else
    firstFailing
      [(1, c.inUse),
       (2, boundaryZoneOk m b c.zoneX),
       (3, c.zoneY == 255 || (c.zoneY != c.zoneX && boundaryZoneOk m b c.zoneY)),
       (4, if c.isDoor then
             stationOfKind m c.doorStation 3 && namedByNoLower (fun j => (boundaryConfig m j).doorStation) b c.doorStation
           else c.doorStation == 0),
       (5, if c.isCover then
             decide (c.ramp < 4) && (rampConfig m c.ramp).station != 0 && (rampConfig m c.ramp).cover == b
           else c.ramp == 255),
       (6, within 10 60 c.prewarnNormal),
       (7, within 3 20 c.prewarnShort && decide (c.prewarnShort ≤ c.prewarnNormal)),
       (8, c.isCover || within 5 60 c.closingLimit),
       (9, c.isCover || within 3 30 c.passageHold),
       (10, c.isCover || (within 10 120 c.passageCap && decide (c.passageHold ≤ c.passageCap)))]

/-- The ramp table (R69). -/
def rampFault (m : Memory) (u : Nat) : Option Nat :=
  let c := rampConfig m u
  if c.station = 0 then
    firstFailing [(2, c.panel == 0), (3, c.zone == 255), (4, c.secondZone == 255), (5, c.cover == 255)]
  else
    firstFailing
      [(1, stationOfKind m c.station 1 && namedByNoLower (fun j => (rampConfig m j).station) u c.station),
       (2, c.panel == 0 || (stationOfKind m c.panel 2 && namedByNoLower (fun j => (rampConfig m j).panel) u c.panel)),
       (3, zoneUsed m c.zone),
       (4, c.secondZone == 255 || (zoneUsed m c.secondZone && c.secondZone != c.zone)),
       (5, c.cover == 255 ||
         (decide (c.cover < 24) && (boundaryConfig m c.cover).isCover && (boundaryConfig m c.cover).ramp == u)),
       (6, decide (c.answerMode ≤ 1)),
       (7, decide (c.rawLow ≤ 4095 ∧ c.rawHigh ≤ 4095 ∧ c.rawLow + 64 ≤ c.rawHigh)),
       (8, angleInRange c.angleLow && angleInRange c.angleHigh && decide (c.angleLow < c.angleHigh)),
       (9, angleInRange c.stowAngle && angleInRange c.landingEstimate && angleInRange c.lowerLimit &&
         decide (c.stowAngle ≤ 879 ∧ c.landingEstimate < c.stowAngle ∧ c.lowerLimit < c.landingEstimate)),
       (10, within 20 300 c.slowZone && within 5 100 c.creepZone && within 1 20 c.stopBand &&
         decide (c.stopBand < c.creepZone ∧ c.creepZone < c.slowZone)),
       (11, decide (c.trafficLimit ≤ 200)),
       (12, within 10 300 c.warnLimit && within 10 300 c.hardLimit && decide (c.warnLimit < c.hardLimit)),
       (13, within 4 8 c.stallWindow && within 1 50 c.minProgress),
       (14, within 5 60 c.motionPrewarn),
       (15, within 3 30 c.pinsLimit),
       (16, within 1 63 c.warningMessage)]

/-- The duration that the catalogue gives a message. -/
def messageDuration (m : Memory) (n : Nat) : Nat := wordAt m (catalogueBase n)

/-- An entry of the catalogue (R124). -/
def entryFault (m : Memory) (n : Nat) : Option Nat :=
  let a := catalogueBase n
  firstFailing
    [(1, decide (messageDuration m n ≤ 600)), (2, decide (byteAt m (a + 2) ≤ 3)), (3, decide (byteAt m (a + 3) ≤ 1))]

/-- A message that is 1 to 63 with a duration other than 0. -/
def messageDefined (m : Memory) (n : Nat) : Bool := within 1 63 n && messageDuration m n != 0

/-- The header (R178); `heartbeat` is the heartbeat count. -/
def headerFault (m : Memory) (heartbeat : Nat) : Option Nat :=
  firstFailing
    [(1, decide (heartbeatEnable m ≤ 1)), (2, heartbeatEnable m != 1 || heartbeat != 0), (3, decide (lineRateCode m ≤ 2)),
     (4, decide (byteAt m 0x10 ≤ 7)), (5, decide (lineCellLevel m .a ≤ 7)), (6, decide (lineCellLevel m .b ≤ 7)),
     (7, messageDefined m (fireMessage m false)), (8, messageDefined m (fireMessage m true))]

/-- The first failure of a table: its index and its field code. -/
def tableFault (indexes : List Nat) (check : Nat → Option Nat) : Option (Nat × Nat) :=
  indexes.findSome? fun i => (check i).map fun code => (i, code)

/-- The warning messages of the ramps in use (R124): a failure is reported with the number of the message. -/
def warningFault (m : Memory) : Option (Nat × Nat) :=
  (List.range 4).findSome? fun u =>
    let c := rampConfig m u
    if c.inUse && messageDuration m c.warningMessage == 0 then some (c.warningMessage, 4) else none

/-- The first failure of START SERVICE: table code, index and field code (R178). -/
def configFault (m : Memory) (heartbeat : Nat) : Option (Nat × Nat × Nat) :=
  ((tableFault ((List.range 48).map fun i => i + 1) (stationFault m)).map fun p => (1, p)).or <|
  ((tableFault (List.range 16) (zoneFault m)).map fun p => (2, p)).or <|
  ((tableFault (List.range 24) (boundaryFault m)).map fun p => (3, p)).or <|
  ((tableFault (List.range 4) (rampFault m)).map fun p => (4, p)).or <|
  ((tableFault ((List.range 63).map fun i => i + 1) (entryFault m)).map fun p => (5, p)).or <|
  ((warningFault m).map fun p => (5, p)).or <|
  (headerFault m heartbeat).map fun code => (6, 0, code)

end Sys2Proof.Machine
end

