-- ==== Sys2Proof/Machine/Orders.lean ====
section
/-! DEFINITION. The order unit (Chapter 10): hands, the arrival list, intake and the common checks. -/

namespace Sys2Proof.Machine

/-! ## The hand (R171) -/

/-- A refused write (R160). -/
def refuse (addr : Nat) (s : State) : State :=
  { s with refusedWrites := satAdd 65535 s.refusedWrites, lastRefused := addr }

/-- Posting (R171). -/
def postSlot (slot : Nat) (s : State) : State :=
  { s with hands := tput s.hands slot .posted, arrivals := s.arrivals ++ [slot] }

/-- Withdrawal (R171). -/
def withdrawSlot (slot : Nat) (s : State) : State :=
  { s with hands := tput s.hands slot .empty, arrivals := s.arrivals.filter fun x => x != slot }

/-- Give back (R171). -/
def giveBackSlot (slot : Nat) (s : State) : State :=
  { s with hands := tput s.hands slot .empty, doneCount := s.doneCount - 1 }

/-- A host write to the hand of a slot, by the hand's value (R171). -/
def writeHand (slot : Nat) (value : Word) (s : State) : State :=
  match tget s.hands slot with
  | .empty => if value = 1 then postSlot slot s else refuse (slotBase slot) s
  | .posted => if value = 0 then withdrawSlot slot s else refuse (slotBase slot) s
  | .done => if value = 0 then giveBackSlot slot s else refuse (slotBase slot) s
  | .taken => refuse (slotBase slot) s

/-! ## The common checks (R174, 10.1) -/

/-- The part states in which a kind is taken (10.1). -/
def takenIn (kind : Nat) (p : PartState) : Bool :=
  match p with
  | .setup => [1, 2, 12].contains kind
  | .service => [2, 8, 9, 16, 20, 21, 22, 23, 32, 33, 34, 35, 40, 41].contains kind
  | .safeHold => [2, 3, 8, 9, 16, 32, 33, 34, 35, 40, 41].contains kind

/-- The target of a kind is in range and configured (R174); kinds without a target pass. -/
def targetInRange (kind target : Nat) (s : State) : Bool :=
  match kind with
  | 8 | 9 => decide (target ≤ 1)
  | 12 => within 1 48 target && tableKind s.ram target != .none
  | 16 => within 1 48 target && (workingOf s.toDeck target).kind != .none
  | 20 | 21 | 22 | 23 => decide (target < 4) && (rampConfig s.ram target).inUse
  | 32 | 34 | 35 => decide (target < 24) && (boundaryConfig s.ram target).inUse
  | 33 => zoneUsed s.ram target
  | 41 => decide (target ≤ 25)
  | _ => true

/-- The first common check that fails: its result and detail byte 0 (R174). -/
def commonCheck (kind slot : Nat) (s : State) : Option (Result × Nat) :=
  if !knownKinds.contains kind then some (.refusedKind, kind)
  else if !takenIn kind s.partState then some (.refusedState, s.partState.code)
  else if !targetInRange kind (slotTarget s.ram slot) s then some (.refusedTarget, slotTarget s.ram slot)
  else none

/-! ## Intake (R172, R173) -/

/-- The slot at the head of the arrival list becomes TAKEN (R173). -/
def takeSlot (slot : Nat) (s : State) : State :=
  let a := slotBase slot
  { s with
    arrivals := s.arrivals.drop 1
    hands := tput s.hands slot .taken
    ram := memWriteBytes (memWriteBytes (memWriteBytes (memWrite s.ram (a + 7) 0) (a + 32) (List.replicate 16 0))
      (a + 48) (stampBytes s.deckClock)) (a + 52) (List.replicate 4 0) }

/-- A completion outside a unit event. -/
def completeNow (slot : Nat) (result : Result) (detail : List Byte) (s : State) : State :=
  refresh (completeSlot ⟨slot, result, detail⟩ s)

/-- The intake of a taken order: the common checks, and then its owning unit (R173, R174). -/
def intakeSlot (kind slot : Nat) (act : Nat → State → State) (s : State) : State :=
  let s := takeSlot slot s
  match commonCheck kind slot s with
  | some (result, byte) => completeNow slot result [byteOf byte] s
  | none => act slot s

/-- The intake of an order whose kind satisfies `p` (R172): the order unit takes the head of the arrival list. -/
def intakeWhere (p : Nat → Bool) (act : Nat → State → State) (s : State) : State :=
  if s.power = .running then
    match s.arrivals with
    | [] => s
    | slot :: _ =>
      if p (slotKind s.ram slot) then intakeSlot (slotKind s.ram slot) slot act s else s
  else s

/-- The intake of an order of one kind. -/
def intake (kind : Nat) (act : Nat → State → State) (s : State) : State := intakeWhere (fun k => k == kind) act s

/-- The intake of an order that a unit acts on. -/
def unitIntake (kind : Nat) (act : Env → Nat → Work → Work) (s : State) : State :=
  intake kind (fun slot => runUnits fun e w => act e slot w) s

end Sys2Proof.Machine
end

