-- ==== Sys2Proof/Machine/Service.lean ====
section
/-! DEFINITION. The service unit (Chapter 11): START SERVICE, ENTER SETUP, RESUME, the heartbeat and SAFE-HOLD, and the
bridge and power-on resets. -/

namespace Sys2Proof.Machine

/-! ## Transitions of the units -/

/-- The rotation class table at a transition (R33). -/
def slowClasses (w : Work) : Work := { w with classes := Vector.replicate 48 .slow }

/-- The units at the start of service (R179): working copies, lines, stations, ramps, boundaries, zones, calls. -/
def unitsStart (e : Env) (old : Deck) (w : Work) : Work :=
  let w := slowClasses (endTests e .b (endTests e .a w))
  let w := { w with working := tabulate 48 fun i => stationConfig e.ram (i + 1) }
  let w := { w with lineA := lineStart e w.lineA, lineB := lineStart e w.lineB,
                    stations := Vector.zipWith stationStart w.working w.stations, ramps := w.ramps.map (rampCleared e.now) }
  let w := neutralOutputs (fun n => (workingOf w.toDeck n).kind) w
  let w := callsStart e (zonesStart e (boundariesTransition e w))
  rewriteSections { sections := true } old (settleLine e .b (settleLine e .a w))

/-- The units at ENTER SETUP (R180). -/
def unitsEnterSetup (e : Env) (old : Deck) (w : Work) : Work :=
  let w := slowClasses w
  let w := { w with lineA := lineToSetup e w.lineA, lineB := lineToSetup e w.lineB,
                    stations := w.stations.map stationToSetup, ramps := w.ramps.map (rampToSetup e.now) }
  let w := neutralOutputs (fun n => (workingOf w.toDeck n).kind) w
  let w := callsEnterSetup e (zonesEnterSetup e (boundariesTransition e w))
  rewriteSections { sections := true } old (settleLine e .b (settleLine e .a w))

/-- An attention cell at bridge reset (R156). -/
def cellReset (c : AttentionCell) : AttentionCell := { number := c.number, edition := c.edition }

/-- The units at bridge reset (R183). -/
def unitsBridgeReset (e : Env) (old : Deck) (w : Work) : Work :=
  let w := slowClasses w
  let w := { w with lineA := lineBridgeReset e w.lineA, lineB := lineBridgeReset e w.lineB,
                    stations := tabulate 48 fun i => stationBridgeReset (stationConfig e.ram (i + 1)) (tget w.stations i),
                    ramps := w.ramps.map (rampCleared e.now), cells := w.cells.map cellReset }
  let w := neutralOutputs (fun n => (workingOf w.toDeck n).kind) w
  let w := callsBridgeReset e (zonesBridgeReset e (boundariesTransition e w))
  rewriteSections { lines := true, sections := true, cells := true } old w

/-- A transition of the units, in place of the end of an ordinary event. -/
def runTransition (f : Env → Deck → Work → Work) (s : State) : State := absorb (f s.env s.toDeck s.work) s

/-! ## The part state (R177) -/

/-- A change of the part state. -/
def enterPart (p : PartState) (s : State) : State := { s with partState := p, stateChanged := true }

/-- The heartbeat period begins, when the heartbeat is enabled (R181). -/
def beginHeartbeat (s : State) : State :=
  { s with heartbeatEnd := if heartbeatEnable s.ram = 1 then some (after s.deckClock 100) else none }

/-- The heartbeat period stops (R181). -/
def stopHeartbeat (s : State) : State := { s with heartbeatEnd := none }

/-! ## START SERVICE (R178, R179) -/

/-- START SERVICE at the service unit (R178): the first failing check completes it REFUSED-CONFIG; otherwise the tests that
wait end with line busy, and the order stays TAKEN. -/
def startOrder (slot : Nat) (s : State) : State :=
  if s.starting.isSome then completeNow slot .refusedBusy [] s
  else
    match configFault s.ram s.heartbeat with
    | some (table, index, field) => completeNow slot .refusedConfig [byteOf table, byteOf index, byteOf field] s
    | none => runUnits (fun e w => endTests e .b (endTests e .a w)) { s with starting := some slot }

/-- The start takes effect (R179). -/
def startEffect (slot : Nat) (s : State) : State :=
  let s := runTransition unitsStart s
  completeNow slot .ok [] { beginHeartbeat (enterPart .service s) with starting := none }

/-- The start takes effect once no test exchange is in flight (R179). -/
def startWhenQuiet (s : State) : State :=
  match s.starting with
  | some slot =>
    if s.power = .running ∧ ¬ testInFlight s.lineA ∧ ¬ testInFlight s.lineB then startEffect slot s else s
  | none => s

/-! ## ENTER SETUP (R180) -/

/-- The first condition that fails: its cause and index (R180). -/
def setupHindrance (slot : Nat) (s : State) : Option (Nat × Nat) :=
  (((List.range 4).find? fun u => (tget s.ramps u).busy).map fun u => (1, u)).or <|
  (((List.range 24).find? fun b => (tget s.boundaries b).demand != .none).map fun b => (2, b)).or <|
  ((List.range 32).find? fun x => x != slot && tget s.hands x == .taken).map fun x => (3, x)

/-- ENTER SETUP at the service unit (R177, R180). -/
def setupOrder (slot : Nat) (s : State) : State :=
  if s.partState = .setup then completeNow slot .ok [] s
  else
    match setupHindrance slot s with
    | some (cause, index) => completeNow slot .refusedBusy [byteOf cause, byteOf index] s
    | none => completeNow slot .ok [] (stopHeartbeat (enterPart .setup (runTransition unitsEnterSetup s)))

/-! ## The heartbeat and SAFE-HOLD (R181, R182, R96) -/

/-- Entry to SAFE-HOLD (R182). -/
def enterSafeHold (s : State) : State :=
  runUnits (fun e w => each (List.range 4) (fun u w => rampSafeHold e u w) w) (stopHeartbeat (enterPart .safeHold s))

/-- The end of a heartbeat period (R181). -/
def heartbeatPeriodEnds (s : State) : State :=
  match s.heartbeatEnd with
  | some t =>
    if s.power = .running ∧ s.partState = .service ∧ reached s.deckClock t then
      let s := { s with heartbeat := s.heartbeat - 1, heartbeatEnd := some (after t 100) }
      if s.heartbeat = 0 then enterSafeHold s else s
    else s
  | none => s

/-- RESUME at the service unit (R182). -/
def resumeOrder (slot : Nat) (s : State) : State :=
  if s.heartbeat = 0 then completeNow slot .refusedState [2, 1] s
  else
    completeNow slot .ok []
      (runUnits (fun _ w => each (List.range 4) dropRequest w) (beginHeartbeat (enterPart .service s)))

/-! ## Bridge reset (R165, R176, R183) -/

/-- A slot at bridge reset (R176). -/
def resetSlot (slot : Nat) (s : State) : State :=
  let a := slotBase slot
  let hand := tget s.hands slot
  if hand = .posted ∨ hand = .taken then
    let ram := memWriteBytes (memWriteBytes (memWrite s.ram (a + 7) (byteOf Result.reset.code)) (a + 32)
      (List.replicate 16 0)) (a + 52) (stampBytes s.deckClock)
    { s with
      ram := if hand = .posted then memWriteBytes ram (a + 48) (stampBytes s.deckClock) else ram
      hands := tput s.hands slot .done
      doneCount := s.doneCount + 1
      orderDone := true }
  else s

/-- The order unit at bridge reset (R176). -/
def resetOrders (s : State) : State :=
  (List.range 32).foldl (fun s slot => resetSlot slot s) { s with arrivals := [] }

/-- A bridge reset (R183). -/
def startBridgeReset (s : State) : State :=
  let s := runTransition unitsBridgeReset (resetOrders { s with starting := none })
  refresh
    { stopHeartbeat (enterPart .setup s) with
      heartbeat := 0, refusedWrites := 0, lastRefused := 0, staleTakes := 0, statusEdited := true,
      bridgeResetting := true }

/-- A host write to CONTROL (R165, R168): the interrupt enable is set from bit 0, and bit 1 starts a bridge reset unless one
is in progress or the power-on clear runs. -/
def writeControl (value : Word) (s : State) : State :=
  if s.power = .inReset then s
  else
    let s := { s with interruptEnable := value.getLsbD 0 }
    if value.getLsbD 1 && !s.bridgeResetting && s.power == .running then startBridgeReset s else refresh s

/-- A host write to WINDOW (R164): bits 5 to 1 are not kept. -/
def writeWindow (value : Word) (s : State) : State :=
  if s.power = .inReset then s else { s with window := value &&& 0xFFC1 }

/-! ## Power-on reset (R168) -/

/-- A line as nRESET is asserted: its work in hand is abandoned (R23, R24). -/
def linePowerReset (x : Line) : Line := { abandonActivity x with state := .idle }

/-- nRESET is asserted (R168). -/
def assertReset (s : State) : State :=
  { s with
    power := .inReset, window := 0, interruptEnable := false, clockLatch := 0, held := [], bridgeResetting := false
    nBINT := true, st0 := false, st1 := false
    lineA := linePowerReset s.lineA, lineB := linePowerReset s.lineB }

/-- A line during the power-on clear: a character still being sent runs to its close (R23). -/
def lineCleared (x : Line) : Line := { driver := x.driver, releasing := x.releasing }

/-- nRESET is released and the power-on clear begins (R168). -/
def beginClear (s : State) : State :=
  if s.power = .inReset then
    { pending := s.pending, races := s.races, lineA := lineCleared s.lineA, lineB := lineCleared s.lineB, power := .clearing }
  else s

/-- What the part writes at the end of the power-on clear (R168): the identity and version words, and the next cell. -/
def finishClear (s : State) : State :=
  refresh { s with power := .running, ram := [(0, 0x14), (1, 0x0D), (2, 0x01)], nextCell := 255 }

end Sys2Proof.Machine
end

