-- ==== Sys2Proof/Machine/HostAccess.lean ====
section
/-! DEFINITION. Host accesses to the exchange area (Chapter 9): ownership, refused writes, takes, the clock latch, and the
accesses held on nRDY. -/

namespace Sys2Proof.Machine

/-! ## Ownership (R159) -/

/-- A configuration word (R159): header 0x0E to 0x15, the configuration bytes of the station, zone, boundary and ramp
records, and the whole catalogue. -/
def isConfigWord (addr : Nat) : Bool :=
  within 0x0E 0x15 addr ||
    (within 0x0900 0x0EFF addr && decide ((addr - 0x0900) % 32 < 4)) ||
    (within 0x1300 0x15FF addr && decide ((addr - 0x1300) % 48 < 8)) ||
    (within 0x1600 0x1BFF addr && decide ((addr - 0x1600) % 64 < 10)) ||
    (within 0x1C00 0x1FFF addr && decide ((addr - 0x1C00) % 256 < 36)) ||
    within 0x2000 0x23FF addr

/-- The configuration words are host-owned: in SETUP, except while a START SERVICE order is TAKEN (R159). -/
def configOpen (s : State) : Bool := s.partState == .setup && s.starting.isNone

/-- The slot of an address on the order board, and its offset in the slot. -/
def slotOfAddr (addr : Nat) : Option (Nat × Nat) :=
  if within 0x0100 0x08FF addr then some ((addr - 0x0100) / 64, (addr - 0x0100) % 64) else none

/-- The attention cell of an address, and its offset in the cell. -/
def cellOfAddr (addr : Nat) : Option (Nat × Nat) :=
  if within 0x0F00 0x121F addr then some ((addr - 0x0F00) / 16, (addr - 0x0F00) % 16) else none

/-! ## Writes -/

/-- A configuration word is stored. The byte 0x13 holds no field and reads 0 (log entry 10). -/
def storeConfig (addr : Nat) (value : Word) (s : State) : State :=
  { s with ram := memWriteWord s.ram addr (if addr = 0x12 then value &&& 0x00FF else value) }

/-- A write to the hand word of an attention cell (R149 to R151). -/
def writeCellHand (cell : Nat) (value : Word) (s : State) : State :=
  let c := tget s.cells cell
  if ¬ c.fresh ∨ lowByte value ≠ takeCode then refuse (cellBase cell) s
  else if highByte value = c.number then runUnits (fun e w => takeCell e cell w) s
  else { s with staleTakes := satAdd 65535 s.staleTakes }

/-- A write to a body word of an order slot: the body is host-owned while the hand reads EMPTY or POSTED (R159, R171), and
bytes 56 to 63 hold no field (10.1). -/
def writeSlotBody (slot off : Nat) (value : Word) (s : State) : State :=
  let hand := tget s.hands slot
  if off < 56 ∧ (hand = .empty ∨ hand = .posted) then { s with ram := memWriteWord s.ram (slotBase slot + off) value }
  else refuse (slotBase slot + off) s

/-- A write to a header word other than the configuration (R159, R162, R181). -/
def writeHeader (addr : Nat) (value : Word) (s : State) : State :=
  match addr with
  | 0x0C => if 1 ≤ value.toNat ∧ value.toNat ≤ 255 then { s with heartbeat := value.toNat } else refuse addr s
  | 0x16 => { s with ram := memWriteWord s.ram addr value }
  | 0x18 => if value = 0 then { s with orderDone := false } else refuse addr s
  | 0x1A => if value = 0 then { s with statusEdited := false } else refuse addr s
  | 0x1C => if value = 0 then { s with stateChanged := false } else refuse addr s
  | 0x20 => { s with newsEnables := value.setWidth 4 }
  | _ => refuse addr s

/-- A host write to the word at an even address, by its ownership at that moment (R159, R160). -/
def writeWord (addr : Nat) (value : Word) (s : State) : State :=
  if isConfigWord addr then (if configOpen s then storeConfig addr value s else refuse addr s)
  else
    match slotOfAddr addr with
    | some (slot, off) => if off = 0 then writeHand slot value s else writeSlotBody slot off value s
    | none =>
      match cellOfAddr addr with
      | some (cell, off) => if off = 0 then writeCellHand cell value s else refuse addr s
      | none => writeHeader addr value s

/-! ## Accesses (R164, R165, R168) -/

/-- A host access is served (R158, R159). -/
def serveAccess (a : HostAccess) (s : State) : State :=
  match a with
  | .write addr value => refresh (writeWord addr value s)
  | .readClockLow => { s with clockLatch := (s.deckClock >>> 16).setWidth 16, dataOut := s.deckClock.setWidth 16 }

/-- The exchange memory holds accesses on nRDY: during a bridge reset (R165) and during the power-on clear (R168). -/
def holdsAccesses (s : State) : Bool := s.bridgeResetting || s.power == .clearing

/-- A host access under nCSX (R164): it is not answered while nRESET is asserted or the window is disabled; it waits while
the exchange memory holds accesses; otherwise it is served. -/
def hostAccess (a : HostAccess) (s : State) : State :=
  if s.power = .inReset ∨ ¬ s.window.getLsbD 0 then s
  else if holdsAccesses s then { s with held := s.held ++ [a] }
  else serveAccess a s

/-- The accesses that wait on nRDY are served, oldest first (R165, R168). -/
def serveHeld (s : State) : State := s.held.foldl (fun s a => serveAccess a s) { s with held := [] }

/-- The bridge reset ends: every unit has taken its values (R165). -/
def endBridgeReset (s : State) : State :=
  if s.bridgeResetting then serveHeld { s with bridgeResetting := false } else s

/-- The power-on clear ends (R168). -/
def endPowerClear (s : State) : State :=
  if s.power = .clearing then serveHeld (finishClear s) else s

/-- The word address of a bus access: the bus addresses whole words, so bit 0 of an address does not exist (0.6.5). -/
def wordAddress (addr : BitVec 14) : Nat := addr.toNat / 2 * 2

end Sys2Proof.Machine
end

