-- ==== Sys2Proof/Machine/HostCommands.lean ====
section
/-! DEFINITION. The meanings of the commands that the host and nRESET send (Chapter 9, R149, R171, R181). -/

namespace Sys2Proof.Machine

/-- POSTING (R171). -/
def execPosting (slot : Fin 32) (s : State) : Host.Outcome State Fault Refusal :=
  .next (hostAccess (.write (slotBase slot) 1) s)

/-- WITHDRAWAL (R171). -/
def execWithdrawal (slot : Fin 32) (s : State) : Host.Outcome State Fault Refusal :=
  .next (hostAccess (.write (slotBase slot) 0) s)

/-- GIVE_BACK (R171). -/
def execGiveBack (slot : Fin 32) (s : State) : Host.Outcome State Fault Refusal :=
  .next (hostAccess (.write (slotBase slot) 0) s)

/-- TAKE (R149): the take code in the low byte, the take number in the high byte. -/
def execTake (cell : Fin 50) (number : Byte) (s : State) : Host.Outcome State Fault Refusal :=
  .next (hostAccess (.write (cellBase cell) (number ++ takeCode)) s)

/-- HOST_WRITE (R159, R160). -/
def execHostWrite (addr : BitVec 14) (value : Word) (s : State) : Host.Outcome State Fault Refusal :=
  .next (hostAccess (.write (wordAddress addr) value) s)

/-- HEARTBEAT_RELOAD (R181). -/
def execHeartbeatReload (value : Word) (s : State) : Host.Outcome State Fault Refusal :=
  .next (hostAccess (.write 0x0C value) s)

/-- The address of a news flag (9.2). -/
def flagAddress : ClearableFlag → Nat
  | .orderDone => 0x18
  | .statusEdited => 0x1A
  | .stateChanged => 0x1C

/-- NEWS_FLAG_CLEAR (R162). -/
def execNewsFlagClear (flag : ClearableFlag) (s : State) : Host.Outcome State Fault Refusal :=
  .next (hostAccess (.write (flagAddress flag) 0) s)

/-- DECK_CLOCK_LOW_READ (R158). -/
def execDeckClockLowRead (s : State) : Host.Outcome State Fault Refusal :=
  .next (hostAccess .readClockLow s)

/-- WINDOW_WRITE (R164). -/
def execWindowWrite (value : Word) (s : State) : Host.Outcome State Fault Refusal :=
  .next (writeWindow value s)

/-- INTERRUPT_ENABLE_WRITE (R165). -/
def execInterruptEnableWrite (value : Word) (s : State) : Host.Outcome State Fault Refusal :=
  .next (writeControl value s)

/-- BRIDGE_RESET (R165, R183). -/
def execBridgeReset (value : Word) (s : State) : Host.Outcome State Fault Refusal :=
  .next (writeControl value s)

/-- BRIDGE_RESET_END (R165). -/
def execBridgeResetEnd (s : State) : Host.Outcome State Fault Refusal :=
  .next (endBridgeReset s)

/-- REGISTER_WRITE_IGNORED (R166, 9.6): a write to IDENT or to the position without a register changes nothing and is not
counted. -/
def execRegisterWriteIgnored (_position : IgnoredPosition) (_value : Word) (s : State) :
    Host.Outcome State Fault Refusal :=
  .next s

/-- POWER_ON_RESET (R168). -/
def execPowerOnReset (s : State) : Host.Outcome State Fault Refusal :=
  .next (assertReset s)

/-- POWER_ON_CLEAR (R168). -/
def execPowerOnClear (s : State) : Host.Outcome State Fault Refusal :=
  .next (beginClear s)

/-- POWER_ON_CLEAR_END (R168). -/
def execPowerOnClearEnd (s : State) : Host.Outcome State Fault Refusal :=
  .next (endPowerClear s)

end Sys2Proof.Machine
end

