-- ==== Sys2Proof/Machine/LineCommands.lean ====
section
/-! DEFINITION. The meanings of the commands that a deck line sends (2.4, R19 to R26). An event that does not belong to the
phase of the line's exchange has no effect (log entry 1). -/

namespace Sys2Proof.Machine

/-- The characters heard in a reply wait begin a reply only when they end with a sync pair (R16). -/
def hearReply (l : LineId) (heard : List RxChar) (w : Work) : Work :=
  if syncHunt heard then replyBegins l w else w

/-- Whether a reception ends at a faulty character or a bad length (R21). -/
def Reception.isFaulty : Reception → Bool
  | .faulty _ => true
  | .incomplete | .complete _ _ _ _ => false

/-- Whether a reception ends with a complete frame (R22). -/
def Reception.isComplete : Reception → Bool
  | .complete _ _ _ _ => true
  | .incomplete | .faulty _ => false

/-- IDLE_WAIT_SUCCESS (R19, R26). -/
def execIdleWaitSuccess (line : LineId) (s : State) : Host.Outcome State Fault Refusal :=
  .next (unitEvent (fun e w => idleWaitSucceeds e line w) s)

/-- IDLE_WAIT_TIMEOUT (R25, R26, R29). -/
def execIdleWaitTimeout (line : LineId) (s : State) : Host.Outcome State Fault Refusal :=
  .next (unitEvent (fun e w => idleWaitFails e line w) s)

/-- RETRY (R26). -/
def execRetry (line : LineId) (s : State) : Host.Outcome State Fault Refusal :=
  .next (unitEvent (fun e w => retryBegins e line w) s)

/-- POLL_END (R20). -/
def execPollEnd (line : LineId) (s : State) : Host.Outcome State Fault Refusal :=
  .next (unitEvent (fun _ w => pollEnds line w) s)

/-- REPLY_START (R16, R20, R21). -/
def execReplyStart (line : LineId) (heard : List RxChar) (s : State) : Host.Outcome State Fault Refusal :=
  .next (unitEvent (fun _ w => hearReply line heard w) s)

/-- NO_REPLY (R20). -/
def execNoReply (line : LineId) (s : State) : Host.Outcome State Fault Refusal :=
  .next (unitEvent (fun e w => noReplyBegins e line w) s)

/-- RECEPTION_FAULT (R21). -/
def execReceptionFault (line : LineId) (chars : List RxChar) (s : State) : Host.Outcome State Fault Refusal :=
  .next (unitEvent (fun e w => if (receive chars).isFaulty then receptionEnds e line (receive chars) w else w) s)

/-- TRUNCATED (R21). -/
def execTruncated (line : LineId) (s : State) : Host.Outcome State Fault Refusal :=
  .next (unitEvent (fun e w => deadlinePasses e line w) s)

/-- REPLY_FRAME (R22). -/
def execReplyFrame (line : LineId) (chars : List RxChar) (s : State) : Host.Outcome State Fault Refusal :=
  .next (unitEvent (fun e w => if (receive chars).isComplete then receptionEnds e line (receive chars) w else w) s)

/-- ABANDONED_POLL_CHARACTER_END (R23): the character closes in every phase of a power-on reset too. -/
def execAbandonedPollCharacterEnd (line : LineId) (s : State) : Host.Outcome State Fault Refusal :=
  .next { s with toDeck := (releaseDriver line s.work).toDeck }

end Sys2Proof.Machine
end

