-- ==== Sys2Proof/Machine/OrderCommands.lean ====
section
/-! DEFINITION. The meanings of the intake commands: one for each order kind (10.1). Each takes the head of the arrival list
when its kind is the command's (R172 to R174). -/

namespace Sys2Proof.Machine

/-- The target of a slot's order. -/
def orderTarget (e : Env) (slot : Nat) : Nat := slotTarget e.ram slot

/-- A parameter byte of a slot's order (10.1). -/
def orderByte (e : Env) (slot off : Nat) : Nat := slotByte e.ram slot off

/-- START_SERVICE (R178). -/
def execStartService (s : State) : Host.Outcome State Fault Refusal :=
  .next (intake 1 startOrder s)

/-- START_TAKES_EFFECT (R179). -/
def execStartTakesEffect (s : State) : Host.Outcome State Fault Refusal :=
  .next (startWhenQuiet s)

/-- ENTER_SETUP (R180). -/
def execEnterSetup (s : State) : Host.Outcome State Fault Refusal :=
  .next (intake 2 setupOrder s)

/-- RESUME (R182). -/
def execResume (s : State) : Host.Outcome State Fault Refusal :=
  .next (intake 3 resumeOrder s)

/-- ISOLATE_LINE (R27). -/
def execIsolateLine (s : State) : Host.Outcome State Fault Refusal :=
  .next (unitIntake 8 (fun e slot => isolateOrder e (lineOfCode (orderTarget e slot)) slot) s)

/-- RESTORE_LINE (R28). -/
def execRestoreLine (s : State) : Host.Outcome State Fault Refusal :=
  .next (unitIntake 9 (fun e slot => restoreOrder e (lineOfCode (orderTarget e slot)) slot) s)

/-- TEST_STATION (R49). -/
def execTestStation (s : State) : Host.Outcome State Fault Refusal :=
  .next (unitIntake 12 (fun e slot => testOrder e (orderTarget e slot) slot (orderByte e slot 8)) s)

/-- UNMUTE_STATION (R152). -/
def execUnmuteStation (s : State) : Host.Outcome State Fault Refusal :=
  .next (unitIntake 16 (fun e slot w => complete slot .ok [] (unmuteStation (orderTarget e slot) w)) s)

/-- RAMP_LOWER (R75): mode in byte 8, control in byte 9, target angle in bytes 10 and 11. -/
def execRampLower (s : State) : Host.Outcome State Fault Refusal :=
  .next (unitIntake 20
    (fun e slot =>
      lowerRamp e (orderTarget e slot) slot (orderByte e slot 8) (orderByte e slot 9)
        (slotAngle e.ram slot 10)) s)

/-- RAMP_RAISE (R76): control in byte 9. -/
def execRampRaise (s : State) : Host.Outcome State Fault Refusal :=
  .next (unitIntake 21 (fun e slot => raiseRampOrder e (orderTarget e slot) slot (orderByte e slot 9)) s)

/-- RAMP_STOP (R86). -/
def execRampStop (s : State) : Host.Outcome State Fault Refusal :=
  .next (unitIntake 22 (fun e slot => stopRamp e (orderTarget e slot) slot) s)

/-- RAMP_TRAFFIC (R91): OFF or ON in byte 8. -/
def execRampTraffic (s : State) : Host.Outcome State Fault Refusal :=
  .next (unitIntake 23 (fun e slot => trafficOrder e (orderTarget e slot) slot (orderByte e slot 8)) s)

/-- CLOSE_BOUNDARY (R104): urgency in byte 8. -/
def execCloseBoundary (s : State) : Host.Outcome State Fault Refusal :=
  .next (unitIntake 32 (fun e slot => closeBoundaryOrder e (orderTarget e slot) slot (orderByte e slot 8)) s)

/-- CLOSE_ZONE (R120): urgency in byte 8. -/
def execCloseZone (s : State) : Host.Outcome State Fault Refusal :=
  .next (unitIntake 33 (fun e slot => closeZoneOrder e (orderTarget e slot) slot (orderByte e slot 8)) s)

/-- RELEASE_BOUNDARY (R111). -/
def execReleaseBoundary (s : State) : Host.Outcome State Fault Refusal :=
  .next (unitIntake 34 (fun e slot => releaseOrder e (orderTarget e slot) slot) s)

/-- FORCE_COVER (R118). -/
def execForceCover (s : State) : Host.Outcome State Fault Refusal :=
  .next (unitIntake 35 (fun e slot => forceOrder e (orderTarget e slot) slot) s)

/-- CALL (R127): message in byte 8, priority in byte 9, repeats in byte 10, zone mask in bytes 12 and 13. -/
def execCall (s : State) : Host.Outcome State Fault Refusal :=
  .next (unitIntake 40
    (fun e slot =>
      placeCall e slot (orderByte e slot 8) (orderByte e slot 9) (orderByte e slot 10) (slotWord e.ram slot 12)) s)

/-- CANCEL_CALL (R129): issue number in byte 8. -/
def execCancelCall (s : State) : Host.Outcome State Fault Refusal :=
  .next (unitIntake 41
    (fun e slot => cancelRecord e slot (orderTarget e slot) (byteOf (orderByte e slot 8))) s)

/-- REFUSED_KIND (R174): an order of unknown kind. -/
def execRefusedKind (s : State) : Host.Outcome State Fault Refusal :=
  .next (intakeWhere (fun k => !knownKinds.contains k) (fun _ s => s) s)

end Sys2Proof.Machine
end

