-- ==== Sys2Proof/Machine/TimerCommands.lean ====
section
/-! DEFINITION. The meanings of the timer commands. A timer that does not run, or that has not yet run out, expires with no
effect (log entries 1 and 3). -/

namespace Sys2Proof.Machine

/-- An expiry for ramp `u`: the timer `t` is due. -/
def rampExpiry (u : Nat) (runs : Ramp → Bool) (t : Ramp → Option Stamp) (act : Env → Work → Work) (s : State) : State :=
  unitEvent (fun e w => if runs (rampOf w.toDeck u) && timerDue e.now (t (rampOf w.toDeck u)) then act e w else w) s

/-- An expiry for boundary `b`: the timer `t` is due. -/
def boundaryExpiry (b : Nat) (kind : BoundaryConfig → Bool) (st : BoundaryState)
    (t : BoundaryConfig → Boundary → Option Stamp) (act : Env → Work → Work) (s : State) : State :=
  unitEvent
    (fun e w =>
      let c := boundaryConfig e.ram b
      let x := tget w.boundaries b
      if kind c && x.state == st && timerDue e.now (t c x) then act e w else w) s

/-- An expiry for the calls of zone `z`: the timer `t` is due. -/
def zoneExpiry (z : Nat) (runs : ZoneCalls → Bool) (t : ZoneCalls → Option Stamp) (act : Env → Work → Work) (s : State) :
    State :=
  unitEvent
    (fun e w => if runs (tget w.zoneCalls z) && timerDue e.now (t (tget w.zoneCalls z)) then act e w else w) s

/-- When the closing limit of a door runs out (R101, R107). -/
def closingEnd (c : BoundaryConfig) (x : Boundary) : Option Stamp :=
  x.closingStart.map fun t => after t (c.closingLimit * 1000)

/-- MOTION_PREWARN_EXPIRY (R79). -/
def execMotionPrewarnExpiry (ramp : Fin 4) (s : State) : Host.Outcome State Fault Refusal :=
  .next (rampExpiry ramp (fun r => r.state == .warning && !r.dwell) (fun r => r.prewarnEnd)
    (fun e w => motionPrewarnEnds e ramp w) s)

/-- PLAY_LIMIT_EXPIRY (R79). -/
def execPlayLimitExpiry (ramp : Fin 4) (s : State) : Host.Outcome State Fault Refusal :=
  .next (rampExpiry ramp (fun r => r.state == .warning) (fun r => r.playLimit) (fun e w => playLimitEnds e ramp w) s)

/-- DEADMAN_WAIT_EXPIRY (R79). -/
def execDeadmanWaitExpiry (ramp : Fin 4) (s : State) : Host.Outcome State Fault Refusal :=
  .next (rampExpiry ramp (fun r => r.state == .warning) (fun r => r.deadmanWait) (fun e w => deadmanWaitEnds e ramp w) s)

/-- REVERSAL_DWELL_END (R87). -/
def execReversalDwellEnd (ramp : Fin 4) (s : State) : Host.Outcome State Fault Refusal :=
  .next (rampExpiry ramp (fun r => r.state == .warning && r.dwell) (fun r => r.prewarnEnd)
    (fun e w => reversalDwellEnds e ramp w) s)

/-- PINS_TIMER_EXPIRY (R81). -/
def execPinsTimerExpiry (ramp : Fin 4) (s : State) : Host.Outcome State Fault Refusal :=
  .next (rampExpiry ramp (fun _ => true) (fun r => r.pinsTimer) (fun e w => pinsTimerEnds e ramp w) s)

/-- RESUME_TIMER_EXPIRY (R84). -/
def execResumeTimerExpiry (ramp : Fin 4) (s : State) : Host.Outcome State Fault Refusal :=
  .next (rampExpiry ramp (fun r => r.busy) (fun r => r.resumeTimer) (fun _ w => resumeTimerEnds ramp w) s)

/-- REQUEST_TIMER_EXPIRY (R88). -/
def execRequestTimerExpiry (ramp : Fin 4) (s : State) : Host.Outcome State Fault Refusal :=
  .next (rampExpiry ramp (fun _ => true) (fun r => r.requestTimer) (fun _ w => requestTimerEnds ramp w) s)

/-- DOOR_PREWARN_EXPIRY (R105). -/
def execDoorPrewarnExpiry (boundary : Fin 24) (s : State) : Host.Outcome State Fault Refusal :=
  .next (boundaryExpiry boundary (fun c => c.isDoor) .prewarn (fun _ x => x.prewarnEnd)
    (fun e w => doorPrewarnEnds e boundary w) s)

/-- COVER_PREWARN_EXPIRY (R116). -/
def execCoverPrewarnExpiry (boundary : Fin 24) (s : State) : Host.Outcome State Fault Refusal :=
  .next (boundaryExpiry boundary (fun c => c.isCover) .prewarn (fun _ x => x.prewarnEnd)
    (fun e w => coverPrewarnEnds e boundary w) s)

/-- CLOSING_LIMIT_EXPIRY (R107). -/
def execClosingLimitExpiry (boundary : Fin 24) (s : State) : Host.Outcome State Fault Refusal :=
  .next (boundaryExpiry boundary (fun c => c.isDoor) .closing closingEnd (fun e w => closingLimitEnds e boundary w) s)

/-- REVERSAL_TIMER_EXPIRY (R108). -/
def execReversalTimerExpiry (boundary : Fin 24) (s : State) : Host.Outcome State Fault Refusal :=
  .next (boundaryExpiry boundary (fun c => c.isDoor) .reversing (fun _ x => x.reversalEnd)
    (fun e w => reversalEnds e boundary w) s)

/-- PASSAGE_HOLD_EXPIRY (R110). -/
def execPassageHoldExpiry (boundary : Fin 24) (s : State) : Host.Outcome State Fault Refusal :=
  .next (boundaryExpiry boundary (fun c => c.isDoor) .passage (fun _ x => x.holdEnd)
    (fun e w => passageEnds e boundary w) s)

/-- PASSAGE_CAP_EXPIRY (R110). -/
def execPassageCapExpiry (boundary : Fin 24) (s : State) : Host.Outcome State Fault Refusal :=
  .next (boundaryExpiry boundary (fun c => c.isDoor) .passage (fun _ x => x.capEnd)
    (fun e w => passageEnds e boundary w) s)

/-- PLAY_TIMEOUT (R139). -/
def execPlayTimeout (zone : Fin 16) (s : State) : Host.Outcome State Fault Refusal :=
  .next (zoneExpiry zone (fun zc => zc.play == .playing) (fun zc => zc.timeout) (fun e w => playTimeoutEnds e zone w) s)

/-- PAUSE_END (R138). -/
def execPauseEnd (zone : Fin 16) (s : State) : Host.Outcome State Fault Refusal :=
  .next (zoneExpiry zone (fun zc => zc.play == .pause) (fun zc => zc.pauseEnd) (fun e w => pauseEnds e zone w) s)

/-- LAMP_LINGER_EXPIRY (R142). -/
def execLampLingerExpiry (zone : Fin 16) (s : State) : Host.Outcome State Fault Refusal :=
  .next (zoneExpiry zone (fun zc => zc.play == .idle) (fun zc => zc.lingerEnd) (fun e w => lingerEnds e zone w) s)

/-- HEARTBEAT_DECREMENT (R181). -/
def execHeartbeatDecrement (s : State) : Host.Outcome State Fault Refusal :=
  .next (heartbeatPeriodEnds s)

end Sys2Proof.Machine
end

