-- ==== Sys2Proof/Machine/Dispatch.lean ====
section
/-! DEFINITION. The meaning of every command: one arm for each row of the table. -/

namespace Sys2Proof.Machine

def exec (i : Instr) (s : State) : Host.Outcome State Fault Refusal :=
  match i with
  | .posting slot => Sys2Proof.Machine.execPosting slot s
  | .withdrawal slot => Sys2Proof.Machine.execWithdrawal slot s
  | .giveBack slot => Sys2Proof.Machine.execGiveBack slot s
  | .take cell number => Sys2Proof.Machine.execTake cell number s
  | .hostWrite addr value => Sys2Proof.Machine.execHostWrite addr value s
  | .heartbeatReload value => Sys2Proof.Machine.execHeartbeatReload value s
  | .newsFlagClear flag => Sys2Proof.Machine.execNewsFlagClear flag s
  | .deckClockLowRead => Sys2Proof.Machine.execDeckClockLowRead s
  | .windowWrite value => Sys2Proof.Machine.execWindowWrite value s
  | .interruptEnableWrite value => Sys2Proof.Machine.execInterruptEnableWrite value s
  | .bridgeReset value => Sys2Proof.Machine.execBridgeReset value s
  | .bridgeResetEnd => Sys2Proof.Machine.execBridgeResetEnd s
  | .registerWriteIgnored position value => Sys2Proof.Machine.execRegisterWriteIgnored position value s
  | .powerOnReset => Sys2Proof.Machine.execPowerOnReset s
  | .powerOnClear => Sys2Proof.Machine.execPowerOnClear s
  | .powerOnClearEnd => Sys2Proof.Machine.execPowerOnClearEnd s
  | .startService => Sys2Proof.Machine.execStartService s
  | .startTakesEffect => Sys2Proof.Machine.execStartTakesEffect s
  | .enterSetup => Sys2Proof.Machine.execEnterSetup s
  | .resume => Sys2Proof.Machine.execResume s
  | .isolateLine => Sys2Proof.Machine.execIsolateLine s
  | .restoreLine => Sys2Proof.Machine.execRestoreLine s
  | .testStation => Sys2Proof.Machine.execTestStation s
  | .unmuteStation => Sys2Proof.Machine.execUnmuteStation s
  | .rampLower => Sys2Proof.Machine.execRampLower s
  | .rampRaise => Sys2Proof.Machine.execRampRaise s
  | .rampStop => Sys2Proof.Machine.execRampStop s
  | .rampTraffic => Sys2Proof.Machine.execRampTraffic s
  | .closeBoundary => Sys2Proof.Machine.execCloseBoundary s
  | .closeZone => Sys2Proof.Machine.execCloseZone s
  | .releaseBoundary => Sys2Proof.Machine.execReleaseBoundary s
  | .forceCover => Sys2Proof.Machine.execForceCover s
  | .call => Sys2Proof.Machine.execCall s
  | .cancelCall => Sys2Proof.Machine.execCancelCall s
  | .refusedKind => Sys2Proof.Machine.execRefusedKind s
  | .idleWaitSuccess line => Sys2Proof.Machine.execIdleWaitSuccess line s
  | .idleWaitTimeout line => Sys2Proof.Machine.execIdleWaitTimeout line s
  | .retry line => Sys2Proof.Machine.execRetry line s
  | .pollEnd line => Sys2Proof.Machine.execPollEnd line s
  | .replyStart line heard => Sys2Proof.Machine.execReplyStart line heard s
  | .noReply line => Sys2Proof.Machine.execNoReply line s
  | .receptionFault line chars => Sys2Proof.Machine.execReceptionFault line chars s
  | .truncated line => Sys2Proof.Machine.execTruncated line s
  | .replyFrame line chars => Sys2Proof.Machine.execReplyFrame line chars s
  | .motionPrewarnExpiry ramp => Sys2Proof.Machine.execMotionPrewarnExpiry ramp s
  | .playLimitExpiry ramp => Sys2Proof.Machine.execPlayLimitExpiry ramp s
  | .deadmanWaitExpiry ramp => Sys2Proof.Machine.execDeadmanWaitExpiry ramp s
  | .reversalDwellEnd ramp => Sys2Proof.Machine.execReversalDwellEnd ramp s
  | .pinsTimerExpiry ramp => Sys2Proof.Machine.execPinsTimerExpiry ramp s
  | .resumeTimerExpiry ramp => Sys2Proof.Machine.execResumeTimerExpiry ramp s
  | .requestTimerExpiry ramp => Sys2Proof.Machine.execRequestTimerExpiry ramp s
  | .doorPrewarnExpiry boundary => Sys2Proof.Machine.execDoorPrewarnExpiry boundary s
  | .coverPrewarnExpiry boundary => Sys2Proof.Machine.execCoverPrewarnExpiry boundary s
  | .closingLimitExpiry boundary => Sys2Proof.Machine.execClosingLimitExpiry boundary s
  | .reversalTimerExpiry boundary => Sys2Proof.Machine.execReversalTimerExpiry boundary s
  | .passageHoldExpiry boundary => Sys2Proof.Machine.execPassageHoldExpiry boundary s
  | .passageCapExpiry boundary => Sys2Proof.Machine.execPassageCapExpiry boundary s
  | .playTimeout zone => Sys2Proof.Machine.execPlayTimeout zone s
  | .pauseEnd zone => Sys2Proof.Machine.execPauseEnd zone s
  | .lampLingerExpiry zone => Sys2Proof.Machine.execLampLingerExpiry zone s
  | .heartbeatDecrement => Sys2Proof.Machine.execHeartbeatDecrement s
  | .abandonedPollCharacterEnd line => Sys2Proof.Machine.execAbandonedPollCharacterEnd line s

end Sys2Proof.Machine
end

