-- ==== Sys2Proof/Machine/Exchange.lean ====
section
/-! DEFINITION. What a host read returns: every word of the exchange area (R157) and the registers (9.6). The words that the
memory does not hold are formed here from the state of the units, by the record layouts of the chapters. -/

namespace Sys2Proof.Machine

/-! ## Status sections as bytes -/

/-- A flag as a byte of weight `w`. -/
def flagBits (flags : List (Bool × Nat)) : Byte := byteOf (flags.map fun f => bitOf f.1 f.2).sum

/-- A count as a word, low byte first. -/
def countBytes (n : Nat) : List Byte := wordBytes (BitVec.ofNat 16 n)

/-- The status of a station, from offset 16 (3.8.1). -/
def stationBytes (x : Station) : List Byte :=
  wordBytes x.edition ++
    [byteOf x.onA.health.code, byteOf x.onB.health.code, byteOf (lineNumber x.current),
     flagBits [(x.silent, 1), (x.established, 2), (x.muted, 4)], x.published, byteOf x.mutedCount] ++
    stampBytes x.lastReply

/-- An attention cell (8.7). -/
def cellBytes (x : AttentionCell) : List Byte :=
  [byteOf (bitOf x.fresh 1), x.number, byteOf ((x.kind.map AttentionKind.code).getD 0), byteOf x.level] ++
    wordBytes x.detail ++ [byteOf x.repeats, x.edition] ++ stampBytes x.first ++ stampBytes x.last

/-- The status of a zone, from offset 16 (1.8.1). -/
def zoneBytes (x : Zone) : List Byte :=
  wordBytes x.edition ++
    [byteOf x.fire.code, byteOf x.demandCount, byteOf (bitOf x.rampOpen 1), x.adjacent, byteOf x.playRecord, x.playIssue,
     byteOf x.queueLength, 0] ++ stampBytes x.playEnd

/-- The waiting slots of a boundary: eight places, 255 unused (6.10.1). -/
def waitingBytes (l : List Nat) : List Byte := (l.map byteOf ++ List.replicate 8 255).take 8

/-- The status of a boundary, from offset 16 (6.10.1). -/
def boundaryBytes (x : Boundary) : List Byte :=
  wordBytes x.edition ++
    [byteOf x.state.code, byteOf x.demand.code, byteOf x.obstructions, byteOf x.blockCause.code, byteOf x.blockDetail,
     byteOf x.drive.code, flagBits [(x.beacon, 1), (x.occupancy, 2), (x.openingMark, 4)], byteOf x.waiting.length] ++
    waitingBytes x.waiting ++ stampBytes (timerStamp x.prewarnEnd) ++ stampBytes (timerStamp x.closingStart) ++
    stampBytes (timerStamp x.holdEnd) ++ stampBytes (timerStamp x.capEnd) ++ stampBytes x.stateStamp

/-- The status of a ramp, from offset 64 (5.13). -/
def rampBytes (x : Ramp) : List Byte :=
  wordBytes x.edition ++ [byteOf x.state.code, byteOf x.reason.code] ++ countBytes x.filtered ++
    wordBytes (angleWord x.angle) ++ wordBytes (angleWord x.velocity) ++ wordBytes (angleWord x.landingAngle) ++
    [byteOf x.valve.code, byteOf x.band.code,
     flagBits [(x.permit, 1), (x.angleValid, 2), (x.clamped, 4), (x.heard, 8)], byteOf x.source.code, byteOf x.slot,
     byteOf x.control.code, byteOf x.movement.code, byteOf x.request.code] ++
    wordBytes (angleWord x.target) ++ stampBytes x.requestStamp ++ stampBytes x.stateStamp ++ [byteOf x.rest.code]

/-- A call record (7.8.1). -/
def recordBytes (x : CallRecord) : List Byte :=
  wordBytes x.edition ++
    [byteOf x.state.code, x.issue, byteOf x.message, byteOf x.priority, byteOf x.repeats, byteOf x.source.code,
     byteOf x.sourceIndex, 0] ++ wordBytes x.tag ++ wordBytes x.zoneSet ++
    (x.progress.map fun p => byteOf (p.heard + 16 * p.outcome.code)).toList ++ stampBytes x.startStamp ++
    stampBytes x.endStamp

/-- A zone queue: eight places, record 255 with priority 0 unused (7.8.2). -/
def queueBytes (q : List QueueEntry) : List Byte :=
  ((q.map fun x => [byteOf x.record, byteOf x.priority]).flatten ++ (List.replicate 8 [(255 : Byte), 0]).flatten).take 16

/-- A line status record (2.7.1). -/
def lineBytes (x : Line) : List Byte :=
  wordBytes x.edition ++ [byteOf x.state.code, byteOf x.rate] ++ countBytes x.parityCount ++ countBytes x.framingCount ++
    countBytes x.crcCount ++ countBytes x.noReplyCount ++ countBytes x.truncatedCount ++ countBytes x.otherCount ++
    countBytes x.lastBlockMisses ++ wordBytes x.blocks ++ countBytes x.errorBlocks ++ countBytes x.jamCount ++
    [byteOf x.fastMembers, byteOf x.slowMembers, 0, 0] ++ stampBytes x.stateStamp

/-- A news flag as its word. -/
def flagWord (b : Bool) : List Byte := [byteOf (bitOf b 1), 0]

/-- The header from offset 0x18 (9.2). -/
def headerTail (s : State) : List Byte :=
  flagWord s.orderDone ++ flagWord s.statusEdited ++ flagWord s.stateChanged ++ flagWord s.attentionFlag ++
    [s.newsEnables.setWidth 8, 0, byteOf s.nextCell, 0] ++ (s.freshCounts.map byteOf).toList ++ [0] ++
    countBytes s.staleTakes ++ countBytes s.refusedWrites ++ countBytes s.lastRefused

/-- The header from offset 0x04 to 0x0D (9.2). -/
def headerMiddle (s : State) : List Byte :=
  [byteOf s.partState.code, 0, byteOf s.doneCount, 0] ++ wordBytes (s.deckClock.setWidth 16) ++ wordBytes s.clockLatch ++
    countBytes s.heartbeat

/-! ## The exchange area (R157) -/

/-- The byte at `off` of a record whose first `config` bytes are held in the memory and whose status stands at `start`. -/
def recordByte (m : Memory) (base off config start : Nat) (status : List Byte) : Byte :=
  if off < config then memRead m (base + off) else if off < start then 0 else status.getD (off - start) 0

/-- The byte of the exchange area at an address. -/
def exchangeByte (s : State) (a : Nat) : Byte :=
  if a < 0x0004 then memRead s.ram a
  else if a < 0x000E then (headerMiddle s).getD (a - 4) 0
  else if a < 0x0018 then memRead s.ram a
  else if a < 0x0100 then (headerTail s).getD (a - 0x18) 0
  else if a < 0x0900 then
    let slot := (a - 0x0100) / 64
    let off := (a - 0x0100) % 64
    if off = 0 then byteOf (tget s.hands slot).code else if off = 1 then 0 else memRead s.ram a
  else if a < 0x0F00 then
    let i := (a - 0x0900) / 32
    recordByte s.ram (0x0900 + 32 * i) ((a - 0x0900) % 32) 4 16 (stationBytes (tget s.stations i))
  else if a < 0x1220 then (cellBytes (tget s.cells ((a - 0x0F00) / 16))).getD ((a - 0x0F00) % 16) 0
  else if a < 0x1300 then 0
  else if a < 0x1600 then
    let z := (a - 0x1300) / 48
    recordByte s.ram (zoneBase z) ((a - 0x1300) % 48) 8 16 (zoneBytes (tget s.zones z))
  else if a < 0x1C00 then
    let b := (a - 0x1600) / 64
    recordByte s.ram (boundaryBase b) ((a - 0x1600) % 64) 10 16 (boundaryBytes (tget s.boundaries b))
  else if a < 0x2000 then
    let u := (a - 0x1C00) / 256
    recordByte s.ram (rampBase u) ((a - 0x1C00) % 256) 36 64 (rampBytes (tget s.ramps u))
  else if a < 0x2400 then memRead s.ram a
  else if a < 0x2C00 then (recordBytes (tget s.records ((a - 0x2400) / 64))).getD ((a - 0x2400) % 64) 0
  else if a < 0x2D00 then (queueBytes (tget s.zoneCalls ((a - 0x2C00) / 16)).queue).getD ((a - 0x2C00) % 16) 0
  else if a < 0x2D40 then (lineBytes s.lineA).getD (a - 0x2D00) 0
  else if a < 0x2D80 then (lineBytes s.lineB).getD (a - 0x2D40) 0
  else 0

/-- The word of the exchange area at an even address (R157): what a host read returns. -/
def exchangeRead (s : State) (a : Nat) : Word :=
  (exchangeByte s (a + 1)).setWidth 16 <<< 8 ||| (exchangeByte s a).setWidth 16

/-! ## The registers (9.6) -/

/-- IDENT: family 13, part 20, revision 1 (R166). -/
def identWord : Word := 0x3541

/-- What a host read of a register position returns: 0 WINDOW, 1 CONTROL, 2 IDENT, 3 no register (9.6). R165 names bits 0 and 1
of CONTROL; bits 15 to 2 are not kept and read 0 (log entry 41). -/
def registerRead (s : State) (position : Fin 4) : Word :=
  match position with
  | 0 => s.window
  | 1 => if s.interruptEnable then 1 else 0
  | 2 => identWord
  | 3 => 0

end Sys2Proof.Machine
end

