-- ==== Sys2Proof/Machine/StationSide.lean ====
section
/-! DEFINITION. The behaviour of a deck station on which the part depends (R48, R136). A station is a product of its own: no
state of it is in `State`, and no command acts on it (log entry 21). -/

namespace Sys2Proof.Machine

/-- A POLL is valid at a station when its check passes and its head carries kind POLL and the station's address (R48). -/
def validPoll (addr : Nat) (head length : Byte) (payload : List Byte) (check : Word) : Bool :=
  crc16 (head :: length :: payload) == check && head == headByte false addr

/-- What the equipment of a station does. -/
inductive Drives where
  | ramp (valve : Valve)
  | panel (permitted waiting go stop : Bool)
  | door (drive : Drive) (beacon : Bool)
  | call (playing : Bool) (lamp : Lamp)
  deriving DecidableEq, Repr

/-- The fail-safe of a station 1.0 s after its last valid POLL (R48): `last` is the last valve command of a ramp station. -/
def failSafe (k : StationKind) (last : Valve) : Option Drives :=
  match k with
  | .none => none
  | .ramp => some (.ramp (if last = .float then .float else .neutral))
  | .panel => some (.panel false false false true)
  | .door => some (.door .close true)
  | .call => some (.call false .steady)

/-- What a call station holds of its play (R136): the token that it remembers, the message that it plays or played last,
whether it plays, and its completion count. -/
structure CallStation where
  token   : Nat := 0
  message : Nat := 0
  playing : Bool := false
  count   : Nat := 0
  deriving DecidableEq, Repr

/-- A call station acts on the outputs of a POLL (R136). -/
def CallStation.onPoll (o : CallOutput) (s : CallStation) : CallStation :=
  if o.stop then { s with playing := false, token := 0 }
  else if o.token ≠ s.token then { s with token := o.token, message := o.message, playing := true }
  else s

/-- A play reaches its end (R136): the 4-bit completion count advances. -/
def CallStation.playEnds (s : CallStation) : CallStation :=
  if s.playing then { s with playing := false, count := (s.count + 1) % 16 } else s

end Sys2Proof.Machine
end

