-- ==== Sys2Proof/Safety.lean ====
section
/-! DEFINITION. What counts as a sound state of the machine, and the words in which statements are made: the invariants that
the manual states in its prose, the parts of the state that a command leaves alone, and what a taken and a completed order
look like. -/

namespace Sys2Proof.Machine

/-! ## Invariants of every state -/

/-- The number of slots whose hand reads DONE. -/
def doneHands (hands : Vector Hand 32) : Nat := (hands.toList.filter fun h => h == .done).length

/-- The exchange memory is in canonical form. -/
abbrev State.memoryCanonical (s : State) : Prop := Memory.wf s.ram = true

/-- R170: the arrival list holds no slot twice, and a slot is in it exactly when its hand reads POSTED. -/
abbrev State.arrivalsArePosted (s : State) : Prop :=
  s.arrivals.Nodup ∧ (∀ slot ∈ s.arrivals, slot < 32) ∧
    ∀ slot < 32, slot ∈ s.arrivals ↔ tget s.hands slot = .posted

/-- R175: the done count is the number of slots whose hand reads DONE. -/
abbrev State.doneCounted (s : State) : Prop := s.doneCount = doneHands s.hands

/-- R153 to R155: while the part runs, the summary in the header agrees with the cells. -/
abbrev State.summaryAgrees (s : State) : Prop :=
  s.power = .running →
    s.freshCounts = freshCountsOf s.cells ∧ s.nextCell = nextCellOf s.cells ∧ s.attentionFlag = attentionOf s.ram s.cells

/-- R163, R169: while the part runs, the pins agree with the flags, the enables and the units. -/
abbrev State.pinsAgree (s : State) : Prop :=
  s.power = .running →
    s.nBINT = interruptPin s ∧ s.st0 = lampLit s (lampFunction s.ram 0) ∧ s.st1 = lampLit s (lampFunction s.ram 1)

/-- The five invariants of the exchange area together. -/
abbrev State.consistent (s : State) : Prop :=
  s.memoryCanonical ∧ s.arrivalsArePosted ∧ s.doneCounted ∧ s.summaryAgrees ∧ s.pinsAgree

/-- R133, R134: a zone queue has at most eight entries, of descending priority, and no record twice. -/
abbrev queueOrdered (q : List QueueEntry) : Prop :=
  q.length ≤ 8 ∧ (q.map fun x => x.record).Nodup ∧ q.Pairwise fun x y => y.priority ≤ x.priority

/-- Every zone queue is ordered. -/
abbrev State.queuesOrdered (s : State) : Prop := ∀ z < 16, queueOrdered (tget s.zoneCalls z).queue

/-- R133 to R135: the entries of a zone's queue are just the ACTIVE records whose outcome there is PENDING. -/
abbrev State.queuesPending (s : State) : Prop :=
  (∀ z < 16, ∀ q ∈ (tget s.zoneCalls z).queue,
    q.record < 32 ∧ (tget s.records q.record).state = .active ∧ inMask (tget s.records q.record).zoneSet z = true ∧
      (tget (tget s.records q.record).progress z).outcome = .pending) ∧
    ∀ z < 16, ∀ r < 32, (tget s.records r).state = .active → (tget (tget s.records r).progress z).outcome = .pending →
      ∃ q ∈ (tget s.zoneCalls z).queue, q.record = r

/-- R121: the boundary unit's warning zone sets are those that the states and the demands of its boundaries give. -/
abbrev State.warningSetsAgree (s : State) : Prop :=
  fireSet s.env s.toDeck .normal = s.fireNormal ∧ fireSet s.env s.toDeck .emergency = s.fireEmergency

/-- R122, R180: no boundary has a demand in SETUP, nor while the power-on clear runs (R168). -/
abbrev State.setupUndemanded (s : State) : Prop :=
  s.partState = .setup ∨ s.power = .clearing → ∀ b < 24, (tget s.boundaries b).demand = .none

/-- R90: the traffic permit of a ramp stands only in LANDED. -/
abbrev State.permitsLanded (s : State) : Prop := ∀ u < 4, (tget s.ramps u).permit = true → (tget s.ramps u).state = .landed

/-- R178, R179: while the configuration is the part's own, it passes the checks of START SERVICE (the heartbeat count, which is
checked once, aside), and outside SETUP the working copy of the station table is the table. The power-on clear runs in SETUP
(R168). -/
abbrev State.configChecked (s : State) : Prop :=
  (s.partState ≠ .setup ∨ s.starting ≠ none → configFault s.ram 1 = none) ∧
    (s.partState ≠ .setup → ∀ n ∈ addresses, workingOf s.toDeck n = stationConfig s.ram n) ∧
    (s.power = .clearing → s.partState = .setup ∧ s.starting = none)

/-- R90: outside SETUP a traffic permit stands only with TIP CONTACT confirmed set and the angle within the traffic limit; an angle
that is not valid is not within it (log entry 15). -/
abbrev State.permitsSound (s : State) : Prop :=
  s.partState ≠ .setup → ∀ u < 4, (tget s.ramps u).permit = true →
    rampSwitch s.env u 3 s.toDeck = true ∧ withinTraffic (rampConfig s.ram u) (tget s.ramps u) = true

/-- R72, R61: the valve command of a ramp is that of its state, and it has a band in LOWERING and RAISING only. -/
abbrev State.valvesFollow (s : State) : Prop :=
  ∀ u < 4, (tget s.ramps u).valve = valveOf (tget s.ramps u).state ∧
    ((tget s.ramps u).band ≠ .none ↔ (tget s.ramps u).state = .lowering ∨ (tget s.ramps u).state = .raising)

/-- R72, R100: outside SETUP the output records and the rotation classes of the ramp, panel and door stations are those of the
ramps and the boundaries that they serve. -/
abbrev State.outputsFollow (s : State) : Prop :=
  s.partState ≠ .setup →
    (∀ u < 4, (rampConfig s.ram u).inUse = true →
      let c := rampConfig s.ram u
      let r := tget s.ramps u
      outputOf s.toDeck c.station = .ramp r.valve r.band ∧
        tget s.classes (stationIndex c.station) = rampClass r.state ∧
        (c.panel ≠ 0 → outputOf s.toDeck c.panel = panelOutput r ∧
          tget s.classes (stationIndex c.panel) = rampClass r.state)) ∧
    ∀ b < 24, (boundaryConfig s.ram b).isDoor = true →
      let addr := (boundaryConfig s.ram b).doorStation
      let x := tget s.boundaries b
      x.drive = driveOf x ∧ x.beacon = beaconOf x ∧ outputOf s.toDeck addr = .door x.drive x.beacon ∧
        tget s.classes (stationIndex addr) = doorClass x.state

/-- R9: what a report or a transition leaves of a zone status section: it stands as it was, or some published field of it differs
and the edition has moved on by two. -/
abbrev Zone.rewritten (old new : Zone) : Prop :=
  new = old ∨ (new.edition = old.edition + 2 ∧ { new with edition := old.edition } ≠ old)

/-- R5, R7: the views of the zone unit hold the state and the demand of each boundary and the state of each ramp. -/
abbrev State.viewsAgree (s : State) : Prop :=
  (∀ b < 24, tget s.boundaryView b = ⟨(tget s.boundaries b).state, (tget s.boundaries b).demand⟩) ∧
    ∀ u < 4, tget s.rampView u = (tget s.ramps u).state

/-- R120, R125: the orders in hand are not yet decided. A CLOSE ZONE order in hand waits at some boundary, and an ACTIVE
record of a bridge call has a PENDING zone. -/
abbrev State.ordersSettled (s : State) : Prop :=
  (∀ slot < 32, (tget s.zoneOrders slot).inHand = true → isWaiting s.toDeck slot = true) ∧
    ∀ r < 26, (tget s.records r).state = .active → outcomeMask (tget s.records r) .pending ≠ 0

/-- The slot of a line's test exchange in flight, and those of its waiting test requests (R29). -/
def testSlots (x : Line) : List Nat :=
  (match x.activity with
    | .exchange y => y.test.toList
    | .quiet | .retry => []) ++ x.tests.map fun t => t.slot

/-- The slots whose orders the units hold: a START SERVICE (R178), tests (R29), movements (R74), CLOSE BOUNDARY orders in a
waiting list (R104), CLOSE ZONE orders (R120), and the CALL orders of ACTIVE records (R125). -/
def State.heldOrders (s : State) : List Nat :=
  s.starting.toList ++ testSlots s.lineA ++ testSlots s.lineB ++
    (s.ramps.toList.filter fun r => r.source == .order).map (fun r => r.slot) ++
    (s.boundaries.toList.map fun x => x.waiting.filter fun slot => !(tget s.zoneOrders slot).inHand).flatten ++
    ((List.range 32).filter fun slot => (tget s.zoneOrders slot).inHand) ++
    ((s.records.toList.take 26).filter fun x => x.state == .active).map fun x => x.sourceIndex

/-- R173, R175: no order is held twice, and a slot whose order some unit holds reads TAKEN. -/
abbrev State.ordersHeld (s : State) : Prop :=
  s.heldOrders.Nodup ∧ ∀ slot ∈ s.heldOrders, slot < 32 ∧ tget s.hands slot = .taken

/-! ## What a command leaves alone -/

/-- The registers, the counts and the latches that only host accesses and resets change, and the queue of commands. -/
structure HostSide where
  pending         : List Instr
  deckClock       : Stamp
  clockLatch      : Word
  newsEnables     : BitVec 4
  staleTakes      : Nat
  refusedWrites   : Nat
  lastRefused     : Nat
  window          : Word
  interruptEnable : Bool
  power           : PowerPhase
  bridgeResetting : Bool
  held            : List HostAccess
  dataOut         : Word
  deriving DecidableEq, Repr

/-- The host's side of a state. -/
def State.hostSide (s : State) : HostSide :=
  { pending := s.pending, deckClock := s.deckClock, clockLatch := s.clockLatch, newsEnables := s.newsEnables
    staleTakes := s.staleTakes, refusedWrites := s.refusedWrites, lastRefused := s.lastRefused, window := s.window
    interruptEnable := s.interruptEnable, power := s.power, bridgeResetting := s.bridgeResetting, held := s.held
    dataOut := s.dataOut }

/-- The part state, the heartbeat, the START SERVICE order in hand and the STATE CHANGED flag (Chapter 11). -/
structure ServiceSide where
  partState    : PartState
  heartbeat    : Nat
  heartbeatEnd : Option Stamp
  starting     : Option Nat
  stateChanged : Bool
  deriving DecidableEq, Repr

/-- The service unit's side of a state. -/
def State.serviceSide (s : State) : ServiceSide :=
  { partState := s.partState, heartbeat := s.heartbeat, heartbeatEnd := s.heartbeatEnd, starting := s.starting
    stateChanged := s.stateChanged }

/-- The bytes of a slot that its completion writes (10.1, R175): the result code, the result detail and the done stamp. -/
abbrev inResult (slot a : Nat) : Prop :=
  a = slotBase slot + 7 ∨ (slotBase slot + 32 ≤ a ∧ a < slotBase slot + 48) ∨ (slotBase slot + 52 ≤ a ∧ a < slotBase slot + 56)

/-- The bytes of a slot that its intake writes (R173): the result code, the result detail and both stamps. -/
abbrev inIntake (slot a : Nat) : Prop :=
  a = slotBase slot + 7 ∨ (slotBase slot + 32 ≤ a ∧ a < slotBase slot + 56)

/-- A station without its muted count and its edition: what an attention cannot change. -/
def Station.apart (x : Station) : Station := { x with mutedCount := 0, edition := 0 }

/-- A line without its edition, the exchange in hand, what waits for it, and its member counts: what a unit other than the
line controller and the station unit cannot change. -/
def Line.apart (x : Line) : Line :=
  { x with edition := 0, activity := .quiet, switched := [], tests := [], fastMembers := 0, slowMembers := 0 }

/-- The host's accesses are answered at once: the part runs, the window is enabled, and nothing holds the exchange memory
(R164, R165, R168). -/
abbrev State.answers (s : State) : Prop :=
  s.power = .running ∧ s.bridgeResetting = false ∧ s.window.getLsbD 0 = true

/-- What an event of the units leaves alone: the host's side, the service side, the arrival list, the working copies, every
hand but those of TAKEN slots that complete, and every byte of memory but the results of TAKEN slots. No flag of it is
cleared. -/
def unitFrame (s t : State) : Prop :=
  t.hostSide = s.hostSide ∧ t.serviceSide = s.serviceSide ∧ t.arrivals = s.arrivals ∧ t.working = s.working ∧
    t.catalogue = s.catalogue ∧
    (∀ slot < 32, tget t.hands slot = tget s.hands slot ∨
      (tget s.hands slot = .taken ∧
        (tget t.hands slot = .done ∨ (tget t.hands slot = .empty ∧ slotQuiet s.ram slot = true)))) ∧
    (∀ a, (∀ slot < 32, tget s.hands slot = .taken → ¬ inResult slot a) → memRead t.ram a = memRead s.ram a) ∧
    (s.orderDone = true → t.orderDone = true) ∧ (s.statusEdited = true → t.statusEdited = true)

/-! ## Orders -/

/-- The order unit takes the order of `slot` next: the part runs, and `slot` is the oldest POSTED slot and has that kind
(R172). The memory is canonical, and the units hold TAKEN orders only. -/
abbrev State.offers (s : State) (kind slot : Nat) : Prop :=
  s.power = .running ∧ s.memoryCanonical ∧ s.ordersHeld ∧ slot < 32 ∧ s.arrivals.head? = some slot ∧
    tget s.hands slot = .posted ∧ slotKind s.ram slot = kind

/-- The order taken next passes the common checks (R174). -/
abbrev State.takes (s : State) (kind slot : Nat) : Prop := s.offers kind slot ∧ commonCheck kind slot s = none

/-- R173: between `s` and `t` the order of `slot` was taken, and no other slot joined or left the arrival list. -/
abbrev taken (s t : State) (slot : Nat) : Prop :=
  t.arrivals = s.arrivals.drop 1 ∧
    ∀ i < 4, memRead t.ram (slotBase slot + 48 + i) = (stampBytes s.deckClock).getD i 0

/-- R173: the order is taken and in hand: TAKEN, with result code, result detail and done stamp 0. -/
abbrev inHand (s t : State) (slot : Nat) : Prop :=
  taken s t slot ∧ tget t.hands slot = .taken ∧ memRead t.ram (slotBase slot + 7) = 0 ∧
    (∀ i < 16, memRead t.ram (slotBase slot + 32 + i) = 0) ∧ ∀ i < 4, memRead t.ram (slotBase slot + 52 + i) = 0

/-- R175: the slot has completed with a result and a detail at the time of `s`: a quiet order that ends OK reads EMPTY, and
any other reads DONE with its result code, its detail, its done stamp and the ORDER DONE flag. -/
abbrev completed (s t : State) (slot : Nat) (result : Result) (detail : List Byte) : Prop :=
  if result = .ok ∧ slotQuiet s.ram slot = true then tget t.hands slot = .empty
  else
    tget t.hands slot = .done ∧ t.orderDone = true ∧ memRead t.ram (slotBase slot + 7) = byteOf result.code ∧
      (∀ i < 16, memRead t.ram (slotBase slot + 32 + i) = (detailOf detail).getD i 0) ∧
      ∀ i < 4, memRead t.ram (slotBase slot + 52 + i) = (stampBytes s.deckClock).getD i 0

/-! ## Ramps -/

/-- R72: a ramp that entered a state at the time `now`: the state, its reason, its stamp and its valve command. -/
abbrev Ramp.entered (r : Ramp) (now : Stamp) (st : RampState) (reason : Reason) : Prop :=
  r.state = st ∧ r.reason = reason ∧ r.stateStamp = now ∧ r.valve = valveOf st

/-- A ramp without a movement in hand (R70). That its control then reads BRIDGE and its target 0 is the model's choice (log
entry 13), and that its motion want is clear also in HELD with reason DEADMAN, which R77 leaves out, is log entry 24. -/
abbrev Ramp.free (r : Ramp) : Prop :=
  r.source = .none ∧ r.slot = 255 ∧ r.control = .bridge ∧ r.movement = .none ∧ r.target = 0 ∧ r.motionWant = false

/-- Between `s` and `t` the movement of ramp `u` ended with a result and a detail code (R74): the ramp is free (log entry 13;
its motion want also on a return to HELD with reason DEADMAN: log entry 24), and the order of a movement of source ORDER
completed with the ramp as it now stands (the moment: log entry 14). -/
abbrev movementEnded (s t : State) (u : Nat) (result : Result) (code : Nat) : Prop :=
  (tget t.ramps u).free ∧
    ((tget s.ramps u).source = .order →
      completed s t (tget s.ramps u).slot result (motionDetail code (tget s.ramps u).target (tget t.ramps u)))

end Sys2Proof.Machine
end

