-- ==== Sys2Proof/Certificates/Slice0/Obligations.lean ====
section
/-! DEFINITION. The statements for the provers: what the spec's rules say of the commands and of the machine. -/

open Sys2Proof Sys2Proof.Machine

/-! ## The step and the invariants -/

/-- Every step with a command waiting runs the command at the front, with the rest of the queue left. -/
def Obligations.StepRunsFrontCommand : Prop :=
  ∀ (s : State) (c : Instr) (rest : List Instr), s.pending = c :: rest → step s = exec c { s with pending := rest }

/-- A step with no command waiting lets one millisecond of deck clock pass, except while nRESET is asserted, and changes
nothing else. The tick is the model's choice (log entry 2); that the clock stands in reset and runs from its release is
R168's. -/
def Obligations.IdleStepTicks : Prop :=
  ∀ s : State, s.pending = [] →
    step s = .next { s with deckClock := if s.power = .inReset then s.deckClock else s.deckClock + 1 }

/-- The state after reset meets every invariant that the statements of this chapter keep. -/
def Obligations.ResetMeetsInvariants : Prop :=
  State.reset.consistent ∧ State.reset.queuesOrdered ∧ State.reset.permitsLanded ∧ State.reset.viewsAgree ∧
    State.reset.ordersSettled ∧ State.reset.ordersHeld ∧ State.reset.queuesPending ∧ State.reset.warningSetsAgree ∧
    State.reset.setupUndemanded ∧ State.reset.configChecked ∧ State.reset.permitsSound ∧ State.reset.valvesFollow ∧
    State.reset.outputsFollow

/-- Every step keeps the exchange area consistent: the memory in canonical form, the arrival list equal to the POSTED slots
(R170), the done count equal to the DONE slots (R175), the attention summary in step with the cells (R153 to R155), and
nBINT, ST0 and ST1 in step with the flags and the units (R163, R169). -/
def Obligations.StepKeepsConsistent : Prop :=
  ∀ s t : State, s.consistent → step s = .next t → t.consistent

/-- Every step keeps every zone queue ordered by priority, at most eight entries long, with no record twice (R133, R134), and
keeps its entries just those of the ACTIVE records whose outcome there is PENDING (R133 to R135). -/
def Obligations.StepKeepsQueuesOrdered : Prop :=
  (∀ s t : State, s.queuesOrdered → step s = .next t → t.queuesOrdered) ∧
    ∀ s t : State, s.queuesOrdered → s.queuesPending → step s = .next t → t.queuesPending

/-- Every step keeps the traffic permit to ramps in LANDED, and, outside SETUP, to ramps whose TIP CONTACT is confirmed set and
whose angle is within the traffic limit (R90), where an angle that is not valid is not within it (log entry 15). Every step
keeps the valve command and the band those of the ramp's state (R72, R61), and, outside SETUP, the output records and the
rotation classes of the ramp, panel and door stations those of the states that they serve (R72, R100). The configuration that
names those stations stays one that START SERVICE has checked (R159, R178, R179). -/
def Obligations.StepKeepsPermitsLanded : Prop :=
  (∀ s t : State, s.permitsLanded → step s = .next t → t.permitsLanded) ∧
    (∀ s t : State, s.valvesFollow → step s = .next t → t.valvesFollow) ∧
    (∀ s t : State, s.consistent → s.configChecked → step s = .next t → t.configChecked) ∧
    (∀ s t : State, s.consistent → s.configChecked → s.permitsLanded → s.permitsSound → step s = .next t →
      t.permitsSound) ∧
    ∀ s t : State, s.consistent → s.configChecked → s.outputsFollow → step s = .next t → t.outputsFollow

/-- Every step keeps the zone unit's views equal to the states and demands of the boundaries and the states of the ramps
(R5, R7); and every step keeps the warning zone sets those of the boundaries (R121), while no boundary has a demand in
SETUP, where the host may rewrite the boundary table (R122, R159, R180). -/
def Obligations.StepKeepsViewsAgree : Prop :=
  (∀ s t : State, s.viewsAgree → step s = .next t → t.viewsAgree) ∧
    ∀ s t : State, s.consistent → s.setupUndemanded → s.warningSetsAgree → step s = .next t →
      t.setupUndemanded ∧ t.warningSetsAgree

/-- Every step completes the orders whose work has ended: no CLOSE ZONE order stays in hand that waits nowhere (R120), and no
bridge record stays ACTIVE without a PENDING zone (R125). -/
def Obligations.StepKeepsOrdersSettled : Prop :=
  ∀ s t : State, s.ordersSettled → step s = .next t → t.ordersSettled

/-! ## Host accesses to the exchange area -/

/-- The hand of an order slot (R171): posting, withdrawal and give back, and the refusals of R160: every host write of any other
value to the hand word is refused, by the hand that it finds. WITHDRAWAL and GIVE_BACK write the same value, so each gives
back a DONE slot and withdraws a POSTED one (log entry 34). Each next state is written out whole, so nothing else changes. -/
def Obligations.HandWritesFollowTheHand : Prop :=
  ∀ (s : State) (slot : Fin 32), s.answers → s.consistent →
    let refused : State := { s with refusedWrites := satAdd 65535 s.refusedWrites, lastRefused := slotBase slot }
    (tget s.hands slot = .empty →
      exec (.posting slot) s = .next { s with hands := tput s.hands slot .posted, arrivals := s.arrivals ++ [slot.val] } ∧
        exec (.withdrawal slot) s = .next refused ∧ exec (.giveBack slot) s = .next refused) ∧
    (tget s.hands slot = .posted →
      (∀ c ∈ [Instr.withdrawal slot, .giveBack slot], exec c s =
        .next { s with hands := tput s.hands slot .empty, arrivals := s.arrivals.filter fun x => x != slot.val }) ∧
        exec (.posting slot) s = .next refused) ∧
    (tget s.hands slot = .done →
      (∀ c ∈ [Instr.withdrawal slot, .giveBack slot], exec c s =
        .next { s with hands := tput s.hands slot .empty, doneCount := s.doneCount - 1 }) ∧
        exec (.posting slot) s = .next refused) ∧
    (tget s.hands slot = .taken →
      exec (.posting slot) s = .next refused ∧ exec (.withdrawal slot) s = .next refused ∧
        exec (.giveBack slot) s = .next refused) ∧
    ∀ (addr : BitVec 14) (value : Word), addr.toNat = slotBase slot →
      (tget s.hands slot = .empty → value ≠ 1 → exec (.hostWrite addr value) s = .next refused) ∧
        (tget s.hands slot = .posted ∨ tget s.hands slot = .done → value ≠ 0 →
          exec (.hostWrite addr value) s = .next refused) ∧
        (tget s.hands slot = .taken → exec (.hostWrite addr value) s = .next refused)

/-- The part unmutes nothing and mutes a station only at a matching take outside SETUP. -/
def Sys2Proof.takeMutes (s : State) (cell : Nat) : Bool :=
  decide (cell < 48) && s.partState != .setup && (tget s.working cell).muteOnTake && !(tget s.stations cell).muted

/-- A take (R149 to R151). A match makes the cell CLEAR and keeps its other fields, and mutes a station with mute-on-take
outside SETUP; a stale take and a take of a CLEAR cell are only counted. The registers, the part state, the arrival list,
every other cell and station, the ramps and the boundaries stay as they are. A raise (R146 to R148): which kinds are fixed
and which are line kinds; a fixed kind goes on the cell at level 7, a base kind at its station's level and a line kind at
the level of its cell, a level of 0 discarding the raise, and a muted station counts a base raise in place of the cell; a
CLEAR cell takes the attention, and a FRESH one coalesces it and keeps the more severe. That a take with mute-on-take makes no
rewrite of the status of a station that is muted already is the model's choice (log entry 8). -/
def Obligations.TakeClearsMatchingCell : Prop :=
  (∀ (s : State) (cell : Fin 50) (number : Byte), s.answers → s.consistent →
    let c := tget s.cells cell
    (c.fresh = true → number = c.number →
      ∃ t, exec (.take cell number) s = .next t ∧
        tget t.cells cell = { c with fresh := false, edition := c.edition + 2 } ∧
        (∀ k < 50, k ≠ cell.val → tget t.cells k = tget s.cells k) ∧
        (∀ i < 48, tget t.stations i =
          if i = cell.val ∧ takeMutes s cell = true then
            { tget s.stations i with muted := true, edition := (tget s.stations i).edition + 2 }
          else tget s.stations i) ∧
        t.ramps = s.ramps ∧ t.boundaries = s.boundaries ∧ t.hostSide = s.hostSide ∧ t.serviceSide = s.serviceSide ∧
        t.arrivals = s.arrivals) ∧
    (c.fresh = true → number ≠ c.number →
      exec (.take cell number) s = .next { s with staleTakes := satAdd 65535 s.staleTakes }) ∧
    (c.fresh = false →
      exec (.take cell number) s =
        .next { s with refusedWrites := satAdd 65535 s.refusedWrites, lastRefused := cellBase cell })) ∧
  (∀ (kind : AttentionKind) (station : StationKind),
    (levelClass kind station = .fixed ↔
      kind ∈ [.panelStop, .rampFault, .floatLimit, .tipLost, .sensorRail, .doorFailed, .coverBlocked] ∨
        (kind = .stationSilent ∧ station ∈ [.ramp, .panel, .door])) ∧
      (levelClass kind station = .line ↔ kind = .lineJammed ∨ kind = .lineErrors)) ∧
  (∀ (e : Env) (addr : Nat) (kind : AttentionKind) (detail : Word) (w : Work), addr ∈ addresses →
    let w' := raiseStation e addr kind detail w
    let level := (workingOf w.toDeck addr).level
    let x := stationOf w.toDeck addr
    let placedAt (level : Nat) : Prop :=
      tget w'.cells (addr - 1) = placeOn kind level detail e.now (tget w.cells (addr - 1)) ∧
        (∀ k < 50, k ≠ addr - 1 → tget w'.cells k = tget w.cells k) ∧ w'.stations = w.stations
    (levelClass kind (workingOf w.toDeck addr).kind = .fixed → placedAt 7) ∧
      (levelClass kind (workingOf w.toDeck addr).kind = .base →
        (level = 0 → w' = w) ∧ (level ≠ 0 → x.muted = false → placedAt level) ∧
          (level ≠ 0 → x.muted = true →
            w'.cells = w.cells ∧ stationOf w'.toDeck addr = { x with mutedCount := satAdd 255 x.mutedCount } ∧
              ∀ n ∈ addresses, n ≠ addr → stationOf w'.toDeck n = stationOf w.toDeck n))) ∧
  (∀ (e : Env) (l : LineId) (kind : AttentionKind) (detail : Word) (w : Work),
    let w' := raiseLine e l kind detail w
    let level := lineCellLevel e.ram l
    (level = 0 → w' = w) ∧
      (level ≠ 0 → tget w'.cells (lineCell l) = placeOn kind level detail e.now (tget w.cells (lineCell l)) ∧
        ∀ k < 50, k ≠ lineCell l → tget w'.cells k = tget w.cells k)) ∧
  ∀ (kind : AttentionKind) (level : Nat) (detail : Word) (stamp : Stamp) (c : AttentionCell),
    let n := placeOn kind level detail stamp c
    n.fresh = true ∧ n.last = stamp ∧ n.number = c.number + 1 ∧
      (c.fresh = false →
        n.kind = some kind ∧ n.level = level ∧ n.detail = detail ∧ n.first = stamp ∧ n.repeats = 1) ∧
      (c.fresh = true → n.first = c.first ∧ n.repeats = satAdd 255 c.repeats ∧
        (c.level < level → n.kind = some kind ∧ n.level = level ∧ n.detail = detail) ∧
        (level ≤ c.level → n.kind = c.kind ∧ n.level = c.level ∧ n.detail = c.detail))

/-- The bytes of a configuration word after a write of `value`: the byte 0x13 holds no field and reads 0 (log entry 10). -/
def Sys2Proof.storedWord (addr : Nat) (value : Word) : Word := if addr = 0x12 then value &&& 0x00FF else value

/-- A host write to a configuration word (R159): stored while the words are host-owned, in SETUP except while a START SERVICE
order is TAKEN, and refused otherwise (R160). That the catalogue words that hold no field are stored is log entry 9, and that
the byte 0x13 reads 0 is log entry 10, both the model's. Every other byte of memory, and everything but the ATTENTION flag and the
pins that follow the threshold (R155), stays as it is. -/
def Obligations.ConfigurationWritesFollowOwnership : Prop :=
  ∀ (s : State) (addr : BitVec 14) (value : Word), s.answers → s.consistent → addr.getLsbD 0 = false →
    isConfigWord addr.toNat = true →
    (s.partState = .setup → s.starting = none →
      ∃ t, exec (.hostWrite addr value) s = .next t ∧
        memReadWord t.ram addr.toNat = storedWord addr.toNat value ∧
        (∀ a, a ≠ addr.toNat → a ≠ addr.toNat + 1 → memRead t.ram a = memRead s.ram a) ∧
        t.attentionFlag = attentionOf t.ram s.cells ∧
        t = { s with ram := t.ram, attentionFlag := t.attentionFlag, nBINT := t.nBINT, st0 := t.st0, st1 := t.st1 }) ∧
    (s.partState ≠ .setup ∨ s.starting ≠ none →
      exec (.hostWrite addr value) s =
        .next { s with refusedWrites := satAdd 65535 s.refusedWrites, lastRefused := addr.toNat })

/-- A host write to a body word of an order slot (R159, R171): stored while the hand reads EMPTY or POSTED, refused while it
reads TAKEN or DONE. The body has 56 bytes; the bytes 56 to 63 hold no field (log entry 11). -/
def Obligations.SlotBodyWritesFollowTheHand : Prop :=
  ∀ (s : State) (slot : Fin 32) (off : Nat) (addr : BitVec 14) (value : Word), s.answers → s.consistent →
    2 ≤ off → off < 56 → off % 2 = 0 → addr.toNat = slotBase slot + off →
    (tget s.hands slot = .empty ∨ tget s.hands slot = .posted →
      ∃ t, exec (.hostWrite addr value) s = .next t ∧ memReadWord t.ram addr.toNat = value ∧
        (∀ a, a ≠ addr.toNat → a ≠ addr.toNat + 1 → memRead t.ram a = memRead s.ram a) ∧ t = { s with ram := t.ram }) ∧
    (tget s.hands slot = .taken ∨ tget s.hands slot = .done →
      exec (.hostWrite addr value) s =
        .next { s with refusedWrites := satAdd 65535 s.refusedWrites, lastRefused := addr.toNat })

/-- A host write to the lamp functions, and to the news enables, which keep bits 0 to 3 (R159, R163, R169): the pins follow at
once. -/
def Obligations.LampAndEnableWritesMoveThePins : Prop :=
  ∀ (s : State) (value : Word), s.answers → s.consistent →
    (∃ t, exec (.hostWrite 0x16 value) s = .next t ∧ memRead t.ram 0x16 = value.setWidth 8 ∧
      memRead t.ram 0x17 = (value >>> 8).setWidth 8 ∧
      (∀ a, a ≠ 0x16 → a ≠ 0x17 → memRead t.ram a = memRead s.ram a) ∧
      t.st0 = lampLit s (value.toNat % 256) ∧ t.st1 = lampLit s (value.toNat / 256) ∧
      t = { s with ram := t.ram, st0 := t.st0, st1 := t.st1 }) ∧
    ∃ t, exec (.hostWrite 0x20 value) s = .next t ∧ t.newsEnables = value.setWidth 4 ∧ t.nBINT = interruptPin t ∧
      t = { s with newsEnables := t.newsEnables, nBINT := t.nBINT }

/-- The words that no host write of any value changes: the part's own header words, the status sections, the call table, the
zone queues, the line status, the attention cells but for their hand words, and the words without a field (R159). -/
def Sys2Proof.partOwned (addr : Nat) : Prop :=
  addr < 0x0C ∨ addr = 0x1E ∨ (0x22 ≤ addr ∧ addr < 0x0100) ∨
    (0x0900 ≤ addr ∧ addr < 0x0F00 ∧ 4 ≤ (addr - 0x0900) % 32) ∨
    (0x0F00 ≤ addr ∧ addr < 0x1220 ∧ (addr - 0x0F00) % 16 ≠ 0) ∨ (0x1220 ≤ addr ∧ addr < 0x1300) ∨
    (0x1300 ≤ addr ∧ addr < 0x1600 ∧ 8 ≤ (addr - 0x1300) % 48) ∨
    (0x1600 ≤ addr ∧ addr < 0x1C00 ∧ 10 ≤ (addr - 0x1600) % 64) ∨
    (0x1C00 ≤ addr ∧ addr < 0x2000 ∧ 36 ≤ (addr - 0x1C00) % 256) ∨ 0x2400 ≤ addr

/-- A host write to a word that the part always owns leaves the word, is counted, and leaves its address (R159, R160). -/
def Obligations.PartOwnedWritesAreRefused : Prop :=
  ∀ (s : State) (addr : BitVec 14) (value : Word), s.answers → s.consistent → addr.getLsbD 0 = false →
    partOwned addr.toNat →
    exec (.hostWrite addr value) s =
      .next { s with refusedWrites := satAdd 65535 s.refusedWrites, lastRefused := addr.toNat }

/-- A host write of 0 to a news flag clears that flag, and nBINT follows (R162, R163); a nonzero write is refused (R160). -/
def Obligations.NewsFlagClearReleasesThePin : Prop :=
  ∀ (s : State), s.answers → s.consistent →
    (∃ t, exec (.newsFlagClear .orderDone) s = .next t ∧ t = { s with orderDone := false, nBINT := interruptPin t }) ∧
    (∃ t, exec (.newsFlagClear .statusEdited) s = .next t ∧ t = { s with statusEdited := false, nBINT := interruptPin t }) ∧
    (∃ t, exec (.newsFlagClear .stateChanged) s = .next t ∧ t = { s with stateChanged := false, nBINT := interruptPin t }) ∧
    ∀ (value : Word) (addr : BitVec 14), value ≠ 0 → addr = 0x18 ∨ addr = 0x1A ∨ addr = 0x1C →
      exec (.hostWrite addr value) s =
        .next { s with refusedWrites := satAdd 65535 s.refusedWrites, lastRefused := addr.toNat }

/-- CONTROL and nBINT (R163, R165): a write with bit 1 clear sets the interrupt enable from bit 0, nBINT follows, and nothing
else changes; bit 1 reads 0. nBINT is low exactly while the interrupt enable is set and a news flag is set whose enable bit
is set, and nRESET drives it high. That every step keeps the pin so is part of `StepKeepsConsistent`. -/
def Obligations.InterruptPinFollowsEnabledFlags : Prop :=
  (∀ (s : State) (value : Word), s.power = .running → s.consistent → value.getLsbD 1 = false →
    ∃ t, exec (.interruptEnableWrite value) s = .next t ∧ t.interruptEnable = value.getLsbD 0 ∧
      t = { s with interruptEnable := t.interruptEnable, nBINT := interruptPin t }) ∧
    (∀ s : State, (registerRead s 1).getLsbD 1 = false ∧ (registerRead s 1).getLsbD 0 = s.interruptEnable) ∧
    (∀ s : State, s.consistent → s.power = .running →
      (s.nBINT = false ↔ s.interruptEnable = true ∧
        ((s.orderDone = true ∧ s.newsEnables.getLsbD 0 = true) ∨
          (s.statusEdited = true ∧ s.newsEnables.getLsbD 1 = true) ∨
          (s.stateChanged = true ∧ s.newsEnables.getLsbD 2 = true) ∨
          (s.attentionFlag = true ∧ s.newsEnables.getLsbD 3 = true)))) ∧
    ∀ s : State, ∃ t, exec .powerOnReset s = .next t ∧ t.nBINT = true

/-- The deck clock (R158): the words are formed from the clock and the latch; a read of the low word returns the low 16 bits
and latches the high 16 in the same access; the high word then reads the latch, whatever the clock does in between; host
writes to either word are refused; the latch reads 0 after power-on reset, and a bridge reset keeps it. -/
def Obligations.DeckClockReadsWhole : Prop :=
  (∀ s : State, exchangeRead s 0x08 = s.deckClock.extractLsb' 0 16 ∧ exchangeRead s 0x0A = s.clockLatch) ∧
  State.reset.clockLatch = 0 ∧
  (∀ (s : State) (value : Word), ∃ t, exec (.bridgeReset value) s = .next t ∧ t.clockLatch = s.clockLatch ∧
    t.deckClock = s.deckClock) ∧
  ∀ s : State, s.answers → s.consistent →
    (∃ t, exec .deckClockLowRead s = .next t ∧ t.dataOut = s.deckClock.extractLsb' 0 16 ∧
      t.dataOut = exchangeRead s 0x08 ∧ t.clockLatch = s.deckClock.extractLsb' 16 16 ∧
      t = { s with clockLatch := t.clockLatch, dataOut := t.dataOut } ∧
      ∀ later : Stamp, exchangeRead { t with deckClock := later } 0x0A = s.deckClock.extractLsb' 16 16) ∧
    ∀ value : Word,
      exec (.hostWrite 0x08 value) s =
          .next { s with refusedWrites := satAdd 65535 s.refusedWrites, lastRefused := 0x08 } ∧
        exec (.hostWrite 0x0A value) s =
          .next { s with refusedWrites := satAdd 65535 s.refusedWrites, lastRefused := 0x0A }

/-! ## The registers, the bridge reset and the power-on reset -/

/-- WINDOW (R164): a write keeps bit 0 and bits 15 to 6; while the enable is clear, no access under nCSX is answered and the
exchange area is unchanged. -/
def Obligations.WindowEnablesTheExchangeArea : Prop :=
  (∀ (s : State) (value : Word), s.power ≠ .inReset →
    ∃ t, exec (.windowWrite value) s = .next t ∧ t = { s with window := t.window } ∧
      t.window.getLsbD 0 = value.getLsbD 0 ∧ t.window.extractLsb' 6 10 = value.extractLsb' 6 10 ∧
      t.window.extractLsb' 1 5 = 0) ∧
    ∀ (s : State) (a : HostAccess), s.window.getLsbD 0 = false → hostAccess a s = s

/-- IDENT (R166): it reads family 13, part 20 and revision 1, which is 0x3541, and a write to it or to the position without a
register changes nothing; after the power-on clear the identity word of the header carries the family and part codes as
0x0D14 and the exchange version word reads 1, and both are part-owned: every host write to them is refused. -/
def Obligations.IdentReadsTheCodes : Prop :=
  (∀ s : State, (registerRead s 2).extractLsb' 10 6 = 13 ∧ (registerRead s 2).extractLsb' 4 6 = 20 ∧
    (registerRead s 2).extractLsb' 0 4 = 1 ∧ registerRead s 2 = 0x3541) ∧
    (∀ (s : State) (position : IgnoredPosition) (value : Word), exec (.registerWriteIgnored position value) s = .next s) ∧
    exchangeRead State.reset 0x00 = 0x0D14 ∧ exchangeRead State.reset 0x02 = 1 ∧
    (∀ s : State, s.power = .clearing → s.held = [] →
      ∃ t, exec .powerOnClearEnd s = .next t ∧ exchangeRead t 0x00 = 0x0D14 ∧ exchangeRead t 0x02 = 1) ∧
    ∀ (s : State) (addr : BitVec 14) (value : Word), s.answers → s.consistent → addr = 0x00 ∨ addr = 0x02 →
      exec (.hostWrite addr value) s =
        .next { s with refusedWrites := satAdd 65535 s.refusedWrites, lastRefused := addr.toNat }

/-- Every step keeps the orders in hand apart: no unit holds an order twice, no two units hold the same order, and a slot whose
order some unit holds reads TAKEN (R173, R175). -/
def Obligations.StepKeepsOrdersHeld : Prop :=
  ∀ s t : State, s.consistent → s.ordersHeld → step s = .next t → t.ordersHeld

/-! ## Held accesses and resets -/

/-- nRDY (R165, R168): while a bridge reset or the power-on clear runs, every access to the exchange area waits and changes
nothing; at its end the accesses that wait are served as if they came then, oldest first. That they are served oldest first
is the model's choice (log entry 5). -/
def Obligations.HeldAccessesAreServedInOrder : Prop :=
  (∀ (s : State) (a : HostAccess), s.power ≠ .inReset → s.window.getLsbD 0 = true → holdsAccesses s = true →
    hostAccess a s = { s with held := s.held ++ [a] }) ∧
    (∀ s : State, s.power = .running → s.bridgeResetting = true → s.window.getLsbD 0 = true →
      exec .bridgeResetEnd s =
        .next (s.held.foldl (fun t a => hostAccess a t) { s with bridgeResetting := false, held := [] })) ∧
    (∀ s : State, s.power = .clearing → s.bridgeResetting = false → s.window.getLsbD 0 = true →
      exec .powerOnClearEnd s = .next (s.held.foldl (fun t a => hostAccess a t) (finishClear { s with held := [] }))) ∧
    ∀ s : State, s.held = [] →
      (s.bridgeResetting = true → exec .bridgeResetEnd s = .next { s with bridgeResetting := false }) ∧
        (s.power = .clearing → exec .powerOnClearEnd s = .next (finishClear s))

/-- A bridge reset and the orders (R176): the arrival list becomes empty, every POSTED and TAKEN slot completes with result
RESET, its done stamp and 0 as its detail, a POSTED slot with its intake stamp too, QUIET or not; EMPTY and DONE slots and all
other memory are kept. -/
def Obligations.BridgeResetEndsTheOrders : Prop :=
  ∀ (s : State) (value : Word), s.power = .running → s.bridgeResetting = false → value.getLsbD 1 = true →
    s.memoryCanonical →
    ∃ t, exec (.bridgeReset value) s = .next t ∧ t.arrivals = [] ∧
      (s.orderDone = true ∨ (∃ slot < 32, tget s.hands slot = .posted ∨ tget s.hands slot = .taken) ↔ t.orderDone = true) ∧
      (∀ slot < 32,
        (tget s.hands slot = .posted ∨ tget s.hands slot = .taken →
          tget t.hands slot = .done ∧ memRead t.ram (slotBase slot + 7) = 15 ∧
            (∀ i < 16, memRead t.ram (slotBase slot + 32 + i) = 0) ∧
            (∀ i < 4, memRead t.ram (slotBase slot + 52 + i) = (stampBytes s.deckClock).getD i 0) ∧
            ∀ i < 4, memRead t.ram (slotBase slot + 48 + i) =
              if tget s.hands slot = .posted then (stampBytes s.deckClock).getD i 0
              else memRead s.ram (slotBase slot + 48 + i)) ∧
        (tget s.hands slot = .empty ∨ tget s.hands slot = .done →
          tget t.hands slot = tget s.hands slot ∧
            ∀ i < 64, memRead t.ram (slotBase slot + i) = memRead s.ram (slotBase slot + i))) ∧
      (∀ slot < 32, ∀ i < 64, ¬ inIntake slot (slotBase slot + i) →
        memRead t.ram (slotBase slot + i) = memRead s.ram (slotBase slot + i)) ∧
      ∀ a, a < 0x0100 ∨ 0x0900 ≤ a → memRead t.ram a = memRead s.ram a

/-- A bridge reset and the units (R183 with R33, R36, R51, R68, R97, R122, R143, R156): the values of every unit, each
rewritten section with its edition moved on, the SETUP state, the counts of the header, and what is kept. A bridge reset in
progress starts no other. The home line of a home line byte other than 0 and 1 (log entry 20), the retry time 0 (log entry 22),
the stamp of a line that was IDLE already (log entry 28), the working copies kept (log entry 30) and the occupancy of a cover
whose ramp field names no ramp (log entry 44) are the model's choices. -/
def Obligations.BridgeResetGivesTheUnitsTheirValues : Prop :=
  (∀ (s : State) (value : Word), s.power = .running → s.bridgeResetting = false → value.getLsbD 1 = true →
    ∃ t, exec (.bridgeReset value) s = .next t ∧ t.bridgeResetting = true ∧ t.interruptEnable = value.getLsbD 0 ∧
      t.partState = .setup ∧ t.stateChanged = true ∧ t.statusEdited = true ∧ t.starting = none ∧ t.heartbeat = 0 ∧
      t.heartbeatEnd = none ∧ t.refusedWrites = 0 ∧ t.lastRefused = 0 ∧ t.staleTakes = 0 ∧ t.nextCell = 255 ∧
      t.attentionFlag = false ∧ (∀ i < 7, tget t.freshCounts i = 0) ∧
      t.pending = s.pending ∧ t.deckClock = s.deckClock ∧ t.clockLatch = s.clockLatch ∧ t.newsEnables = s.newsEnables ∧
      t.window = s.window ∧ t.power = s.power ∧ t.held = s.held ∧ t.dataOut = s.dataOut ∧
      t.working = s.working ∧ t.catalogue = s.catalogue ∧
      (∀ l, lineOf t.toDeck l =
        { edition := (lineOf s.toDeck l).edition + 2, driver := (lineOf s.toDeck l).driver,
          releasing := (abandonActivity (lineOf s.toDeck l)).releasing,
          stateStamp := if (lineOf s.toDeck l).state = .idle then (lineOf s.toDeck l).stateStamp else s.deckClock }) ∧
      (∀ i < 48, tget t.classes i = .slow ∧ tget t.outputs i = neutralOutput (tget s.working i).kind ∧
        tget t.stations i =
          { edition := (tget s.stations i).edition + 2, current := (stationConfig s.ram (i + 1)).homeLine }) ∧
      (∀ u < 4, tget t.ramps u =
        { edition := (tget s.ramps u).edition + 2, slot := 255, stateStamp := s.deckClock }) ∧
      (∀ b < 24, tget t.boundaries b =
        { edition := (tget s.boundaries b).edition + 2, occupancy := occupancyAtReset s.ram b,
          stateStamp := s.deckClock }) ∧
      t.fireNormal = 0 ∧ t.fireEmergency = 0 ∧
      (∀ r < 32, (tget t.records r).state = .free ∧ (tget t.records r).issue = (tget s.records r).issue) ∧
      (∀ z < 16, tget t.zoneCalls z = {} ∧ (tget t.zones z).fire = .normal ∧ (tget t.zones z).demandCount = 0 ∧
        (tget t.zones z).adjacent = 0 ∧ (tget t.zones z).playRecord = 255 ∧ (tget t.zones z).playIssue = 0 ∧
        (tget t.zones z).queueLength = 0 ∧ (tget t.zones z).playEnd = 0 ∧
        (tget t.zones z).rampOpen = ((zoneConfig s.ram z).inUse && decide ((zoneConfig s.ram z).ramp ≤ 3))) ∧
      ∀ k < 50, tget t.cells k = { number := (tget s.cells k).number, edition := (tget s.cells k).edition + 2 }) ∧
    ∀ (s : State) (value : Word), s.power = .running → s.bridgeResetting = true → s.consistent →
      ∃ t, exec (.bridgeReset value) s = .next t ∧
        t = { s with interruptEnable := value.getLsbD 0, nBINT := interruptPin t }

/-- A power-on reset (R168): nRESET asserted disables the window and the interrupt and drives nBINT high and both lamps
dark; its release begins the clear, in which the deck clock starts from 0; the end of the clear leaves the reset state. The
queue of commands, the count of order races (log entry 6) and a line driver that is still sending the last character of an
abandoned POLL (R23) are no part of the clear: that they are kept is the model's choice (log entry 29), and so are the
values of the reset state that the manual does not give: the retry time and D0 to D15 at 0, the new error block and the
working copies at 0 (log entry 22). -/
def Obligations.PowerOnResetGivesTheResetState : Prop :=
  ∀ s : State, ∃ a b c,
    exec .powerOnReset s = .next a ∧ a.power = .inReset ∧ a.window = 0 ∧ a.interruptEnable = false ∧ a.nBINT = true ∧
      a.st0 = false ∧ a.st1 = false ∧ a.held = [] ∧
      (∀ l, (lineOf a.toDeck l).releasing = true ↔
        (lineOf s.toDeck l).releasing = true ∨
          ∃ x frame, (lineOf s.toDeck l).activity = .exchange x ∧ x.phase = .poll frame) ∧
      exec .powerOnClear a = .next b ∧ b.power = .clearing ∧ b.deckClock = 0 ∧
      exec .powerOnClearEnd b = .next c ∧
      c = { State.reset with
        pending := s.pending, races := s.races
        lineA := { driver := s.lineA.driver, releasing := a.lineA.releasing }
        lineB := { driver := s.lineB.driver, releasing := a.lineB.releasing } }

/-! ## The order unit and the service unit -/

/-- The intake command of every kind of the table of 10.1. -/
def Sys2Proof.orderCommands : List (Instr × Nat) :=
  [(.startService, 1), (.enterSetup, 2), (.resume, 3), (.isolateLine, 8), (.restoreLine, 9), (.testStation, 12),
   (.unmuteStation, 16), (.rampLower, 20), (.rampRaise, 21), (.rampStop, 22), (.rampTraffic, 23), (.closeBoundary, 32),
   (.closeZone, 33), (.releaseBoundary, 34), (.forceCover, 35), (.call, 40), (.cancelCall, 41)]

/-- An order was taken and refused, and no unit changed. -/
def Sys2Proof.refusedAtIntake (s t : State) (slot : Nat) (result : Result) (byte : Nat) : Prop :=
  taken s t slot ∧ completed s t slot result [byteOf byte] ∧ t.toDeck = s.toDeck ∧ t.hostSide = s.hostSide ∧
    t.serviceSide = s.serviceSide

/-- The common checks (R174): a kind that is not taken in the part state completes REFUSED-STATE with the state as its detail,
then a target out of range or not configured completes REFUSED-TARGET with the target, and an unknown kind completes
REFUSED-KIND with the kind; no unit changes. An intake command whose kind the oldest POSTED slot has not does nothing (log
entry 1). That TEST STATION takes a kind byte above 4 of the station table for NONE is the model's choice (log entry 45). -/
def Obligations.CommonChecksRefuseOrders : Prop :=
  (∀ (s : State) (slot kind : Nat) (c : Instr), (c, kind) ∈ orderCommands → s.offers kind slot →
    (takenIn kind s.partState = false →
      ∃ t, exec c s = .next t ∧ refusedAtIntake s t slot .refusedState s.partState.code) ∧
    (takenIn kind s.partState = true → targetInRange kind (slotTarget s.ram slot) s = false →
      ∃ t, exec c s = .next t ∧ refusedAtIntake s t slot .refusedTarget (slotTarget s.ram slot))) ∧
    (∀ (s : State) (slot kind : Nat), kind ∉ knownKinds → s.offers kind slot →
      ∃ t, exec .refusedKind s = .next t ∧ refusedAtIntake s t slot .refusedKind kind) ∧
    ∀ (s : State) (kind : Nat) (c : Instr), (c, kind) ∈ orderCommands →
      s.arrivals.head?.map (slotKind s.ram) ≠ some kind → exec c s = .next s

/-- START SERVICE (R178): with a START SERVICE already TAKEN it completes REFUSED-BUSY; the first failing check of the
configuration completes it REFUSED-CONFIG with the table, the index and the field; otherwise the order stays TAKEN, and the
tests that wait end with line busy. The part state does not change yet. -/
def Obligations.StartServiceChecksTheConfiguration : Prop :=
  ∀ (s : State) (slot : Nat), s.takes 1 slot →
    ∃ t, exec .startService s = .next t ∧ taken s t slot ∧ t.hostSide = s.hostSide ∧ t.partState = s.partState ∧
      t.heartbeat = s.heartbeat ∧ t.heartbeatEnd = s.heartbeatEnd ∧ t.stateChanged = s.stateChanged ∧
      (s.starting ≠ none → completed s t slot .refusedBusy [] ∧ t.starting = s.starting ∧ t.toDeck = s.toDeck) ∧
      (s.starting = none → ∀ table index field, configFault s.ram s.heartbeat = some (table, index, field) →
        completed s t slot .refusedConfig [byteOf table, byteOf index, byteOf field] ∧ t.starting = none ∧
          t.toDeck = s.toDeck) ∧
      (s.starting = none → configFault s.ram s.heartbeat = none →
        inHand s t slot ∧ t.starting = some slot ∧ t.lineA.tests = [] ∧ t.lineB.tests = [] ∧
          ∀ l, ∀ x ∈ (lineOf s.toDeck l).tests, completed s t x.slot .ok (testDetail 9 l [] s.deckClock))

/-- The start of service (R179): once no test exchange is in flight the START SERVICE order completes OK, the part enters
SERVICE, the working copies are taken, and every unit takes its values; until then nothing happens, and neither does anything
with no start in hand (log entry 1). The occupancy of a cover whose ramp field names no ramp, which no checked configuration
has, is log entry 44. -/
def Obligations.StartTakesEffectBeginsService : Prop :=
  (∀ (s : State) (slot : Nat), s.power = .running → s.memoryCanonical → s.ordersHeld → s.starting = some slot →
    testInFlight s.lineA = false → testInFlight s.lineB = false →
    ∃ t, exec .startTakesEffect s = .next t ∧ completed s t slot .ok [] ∧ t.hostSide = s.hostSide ∧
      t.partState = .service ∧ t.stateChanged = true ∧ t.starting = none ∧ t.heartbeat = s.heartbeat ∧
      t.heartbeatEnd = (if heartbeatEnable s.ram = 1 then some (after s.deckClock 100) else none) ∧
      (∀ n < 48, tget t.working n = stationConfig s.ram (n + 1)) ∧
      (∀ n < 64, tget t.catalogue n = catalogueEntry s.ram n) ∧
      (∀ l, let x := lineOf t.toDeck l
        x.state = .running ∧ x.rate = lineRateCode s.ram ∧ x.stateStamp = s.deckClock ∧ x.parityCount = 0 ∧
        x.framingCount = 0 ∧ x.crcCount = 0 ∧ x.noReplyCount = 0 ∧ x.truncatedCount = 0 ∧ x.otherCount = 0 ∧
        x.lastBlockMisses = 0 ∧ x.blocks = 0 ∧ x.errorBlocks = 0 ∧ x.jamCount = 0 ∧ x.blockPosition = 0 ∧
        x.blockMisses = 0 ∧ x.pattern = {} ∧ x.switched = [] ∧ x.tests = []) ∧
      (∀ n < 48, let x := tget s.stations n; let c := stationConfig s.ram (n + 1)
        tget t.classes n = .slow ∧ tget t.outputs n = neutralOutput c.kind ∧
        tget t.stations n =
          { edition := x.edition + 2, muted := x.muted, mutedCount := x.mutedCount,
            current := if c.kind = .none then x.current else c.homeLine }) ∧
      (∀ u < 4, tget t.ramps u = { edition := (tget s.ramps u).edition + 2, slot := 255, stateStamp := s.deckClock }) ∧
      (∀ b < 24, tget t.boundaries b =
        { edition := (tget s.boundaries b).edition + 2, occupancy := occupancyAtReset s.ram b,
          stateStamp := s.deckClock }) ∧
      (∀ r < 32, (tget t.records r).state = .free) ∧
      (∀ z < 16, tget t.zoneCalls z = {} ∧ (tget t.zones z).fire = .normal ∧ (tget t.zones z).demandCount = 0 ∧
        (tget t.zones z).playRecord = 255 ∧ (tget t.zones z).queueLength = 0 ∧
        (tget t.zones z).playEnd = (tget s.zones z).playEnd ∧
        (tget t.zones z).rampOpen = ((zoneConfig s.ram z).inUse && (zoneConfig s.ram z).ramp != 255)) ∧
      t.cells = s.cells) ∧
    ∀ s : State, s.starting = none ∨ testInFlight s.lineA = true ∨ testInFlight s.lineB = true →
      exec .startTakesEffect s = .next s

/-- ENTER SETUP (R180): in SETUP it completes OK and changes nothing; a busy ramp, then a demand, then another TAKEN slot
refuses it with the cause and the lowest index; otherwise the part enters SETUP and every unit takes its values, the line
counters, f, θ, the clamp flag, the landing angles, the confirmed input bytes and the play tokens being kept. The occupancy of
a cover whose ramp field names no ramp, which no checked configuration has, is log entry 44. -/
def Obligations.EnterSetupNeedsQuietDecks : Prop :=
  ∀ (s : State) (slot : Nat), s.takes 2 slot →
    ∃ t, exec .enterSetup s = .next t ∧ taken s t slot ∧ t.hostSide = s.hostSide ∧
      (s.partState = .setup → completed s t slot .ok [] ∧ t.toDeck = s.toDeck ∧ t.serviceSide = s.serviceSide) ∧
      (∀ u < 4, s.partState ≠ .setup → (tget s.ramps u).busy = true → (∀ v < u, (tget s.ramps v).busy = false) →
        completed s t slot .refusedBusy [1, byteOf u] ∧ t.toDeck = s.toDeck ∧ t.serviceSide = s.serviceSide) ∧
      (∀ b < 24, s.partState ≠ .setup → (∀ u < 4, (tget s.ramps u).busy = false) →
        (tget s.boundaries b).demand ≠ .none → (∀ c < b, (tget s.boundaries c).demand = .none) →
        completed s t slot .refusedBusy [2, byteOf b] ∧ t.toDeck = s.toDeck ∧ t.serviceSide = s.serviceSide) ∧
      (∀ k < 32, s.partState ≠ .setup → (∀ u < 4, (tget s.ramps u).busy = false) →
        (∀ b < 24, (tget s.boundaries b).demand = .none) → tget s.hands k = .taken →
        (∀ j < k, tget s.hands j ≠ .taken) →
        completed s t slot .refusedBusy [3, byteOf k] ∧ t.toDeck = s.toDeck ∧ t.serviceSide = s.serviceSide) ∧
      (s.partState ≠ .setup → (∀ u < 4, (tget s.ramps u).busy = false) →
        (∀ b < 24, (tget s.boundaries b).demand = .none) → (∀ k < 32, tget s.hands k ≠ .taken) →
        completed s t slot .ok [] ∧ t.partState = .setup ∧ t.stateChanged = true ∧ t.heartbeatEnd = none ∧
          t.heartbeat = s.heartbeat ∧ t.working = s.working ∧ t.cells = s.cells ∧
          (∀ l, let x := lineOf s.toDeck l; let y := lineOf t.toDeck l
            y.state = .idle ∧ y.stateStamp = s.deckClock ∧ y.switched = [] ∧ y.pattern = {} ∧ y.rate = x.rate ∧
            y.parityCount = x.parityCount ∧ y.framingCount = x.framingCount ∧ y.crcCount = x.crcCount ∧
            y.noReplyCount = x.noReplyCount ∧ y.truncatedCount = x.truncatedCount ∧ y.otherCount = x.otherCount ∧
            y.blocks = x.blocks ∧ y.errorBlocks = x.errorBlocks ∧ y.jamCount = x.jamCount ∧ y.fastMembers = 0 ∧
            y.slowMembers = 0) ∧
          (∀ n < 48, tget t.classes n = .slow ∧ tget t.outputs n = neutralOutput (tget s.working n).kind ∧
            tget t.stations n =
              { tget s.stations n with edition := (tget s.stations n).edition + 2, established := false,
                                       inputs := Vector.replicate 5 {} }) ∧
          (∀ u < 4, let r := tget s.ramps u
            tget t.ramps u =
              { edition := r.edition + 2, slot := 255, stateStamp := s.deckClock, filtered := r.filtered,
                angle := r.angle, clamped := r.clamped, landingAngle := r.landingAngle }) ∧
          (∀ b < 24, tget t.boundaries b =
            { edition := (tget s.boundaries b).edition + 2, occupancy := occupancyAtReset s.ram b,
              stateStamp := s.deckClock }) ∧
          (∀ r < 32, (tget t.records r).state = .free) ∧
          ∀ z < 16, tget t.zoneCalls z = { token := (tget s.zoneCalls z).token } ∧ (tget t.zones z).fire = .normal ∧
            (tget t.zones z).demandCount = 0 ∧ (tget t.zones z).playRecord = 255 ∧ (tget t.zones z).queueLength = 0)

/-- RESUME (R182): with the heartbeat count at 0 it completes REFUSED-STATE with detail 2, 1; otherwise the part enters
SERVICE, the heartbeat runs again when it is enabled, and every pending panel request ends. The request stamp is kept (log
entry 25). -/
def Obligations.ResumeReturnsToService : Prop :=
  ∀ (s : State) (slot : Nat), s.takes 3 slot →
    ∃ t, exec .resume s = .next t ∧ taken s t slot ∧ t.hostSide = s.hostSide ∧ t.heartbeat = s.heartbeat ∧
      t.starting = s.starting ∧
      (s.heartbeat = 0 → completed s t slot .refusedState [2, 1] ∧ t.toDeck = s.toDeck ∧ t.serviceSide = s.serviceSide) ∧
      (s.heartbeat ≠ 0 →
        completed s t slot .ok [] ∧ t.partState = .service ∧ t.stateChanged = true ∧
          t.heartbeatEnd = (if heartbeatEnable s.ram = 1 then some (after s.deckClock 100) else none) ∧
          (∀ u < 4, tget t.ramps u =
            rewriteRamp false (tget s.ramps u) { tget s.ramps u with request := .none, requestTimer := none }) ∧
          t.boundaries = s.boundaries ∧ t.stations = s.stations ∧ t.cells = s.cells)

/-! ## A station that falls SILENT -/

/-- R146 to R148: the cell of a station is FRESH with the time of `s`. -/
def Sys2Proof.attended (s t : State) (addr : Nat) : Prop :=
  (tget t.cells (addr - 1)).fresh = true ∧ (tget t.cells (addr - 1)).last = s.deckClock

/-- R146, R147: a base raise for the station reaches its cell: its level is not 0, and it is not muted. -/
def Sys2Proof.heeded (s : State) (addr : Nat) : Prop :=
  (workingOf s.toDeck addr).level ≠ 0 ∧ (stationOf s.toDeck addr).muted = false

/-- The source, the slot, the movement and the target of a ramp are kept. -/
def Sys2Proof.movementKept (r r' : Ramp) : Prop :=
  r'.source = r.source ∧ r'.slot = r.slot ∧ r'.movement = r.movement ∧ r'.target = r.target

/-- Station `n` fell SILENT between `s` and `t` (R42). -/
def Sys2Proof.fellSilent (s t : State) (n : Nat) : Prop :=
  (stationOf s.toDeck n).silent = false ∧ (stationOf t.toDeck n).silent = true

/-- R67: the arithmetic of a ramp whose station is lost: the histories, the runs, the last sequence, the velocity and the angle
valid flag go, and f, θ and the clamp flag are kept. -/
def Sys2Proof.arithmeticLost (r : Ramp) : Ramp :=
  { r with lastSequence := none, railRun := 0, rawHistory := [], angleHistory := [], wrongRun := 0, phaseSamples := 0,
           velocity := 0, angleValid := false }

/-- R67, R94: what the loss of its ramp station does to ramp `u`. The permit and the arithmetic go. A ramp that moves, is
held by the deadman, or is in WARNING stops in HELD with reason SILENT, and its order completes FAULT; a WARNING whose call
station is lost in the same event may be ended by that loss first. A ramp in any other state keeps it, with its reason,
stamp and movement. -/
def Sys2Proof.rampSilenced (s t : State) (u : Nat) : Prop :=
  let r := tget s.ramps u
  let r' := tget t.ramps u
  let warned := r.state = .warning ∧ (r.heard = true ∨ ∀ a, warningStation s.env u = some a → ¬ fellSilent s t a)
  let kept := r'.landingAngle = r.landingAngle ∧ r'.driftWarned = r.driftWarned ∧ r'.driftLimit = r.driftLimit
  r'.permit = false ∧ r'.lastSequence = none ∧ r'.railRun = 0 ∧ r'.rawHistory = [] ∧ r'.angleHistory = [] ∧
    r'.wrongRun = 0 ∧ r'.phaseSamples = 0 ∧ r'.velocity = 0 ∧ r'.angleValid = false ∧ r'.filtered = r.filtered ∧
    r'.angle = r.angle ∧ r'.clamped = r.clamped ∧
    (r.state.moves = true ∨ r.deadmanHeld = true ∨ warned →
      r'.entered s.deckClock .held .silent ∧ movementEnded s t u .fault 0 ∧ kept) ∧
    (r.state ≠ .warning → r.state.moves = false → r.deadmanHeld = false →
      r'.state = r.state ∧ r'.reason = r.reason ∧ r'.stateStamp = r.stateStamp ∧ r'.valve = r.valve ∧
        movementKept r r' ∧ kept)

/-- R95, R84: what the loss of its panel station does to ramp `u`. A pending request is dropped, the occupancy is handed over as
set, and a movement under LOCAL control is held as at a released deadman, while one under BRIDGE control goes on. -/
def Sys2Proof.panelSilenced (s t : State) (u : Nat) : Prop :=
  let r := tget s.ramps u
  let r' := tget t.ramps u
  r'.request = .none ∧ r'.requestTimer = none ∧
    (∀ b, coverOf s.ram u = some b → (tget t.boundaries b).occupancy = true) ∧
    (r.state.moves = true → ¬ fellSilent s t (rampConfig s.ram u).station →
      r'.control = r.control ∧ movementKept r r' ∧
        (r.control = .atPanel →
          r'.entered s.deckClock .held .deadman ∧ r'.resume = some r.state ∧
            r'.resumeTimer = some (after s.deckClock 60000)) ∧
        (r.control = .bridge → r'.state = r.state ∧ r'.stateStamp = r.stateStamp))

/-- R113, R100: what the loss of its station does to door `b`. It is UNKNOWN and its timers stop; the demand, the waiting list and
the obstruction count are kept, and the waiting orders stay TAKEN. -/
def Sys2Proof.doorSilenced (s t : State) (b : Nat) : Prop :=
  let x := tget s.boundaries b
  let y := tget t.boundaries b
  y.state = .unknown ∧ y.prewarnEnd = none ∧ y.closingStart = none ∧ y.holdEnd = none ∧ y.capEnd = none ∧
    y.reversalEnd = none ∧ y.demand = x.demand ∧ y.waiting = x.waiting ∧ y.obstructions = x.obstructions ∧
    (x.state ≠ .unknown →
      y.stateStamp = s.deckClock ∧ y.drive = (if x.demand = .none then .holdOpen else .close) ∧
        y.beacon = (x.demand != .none)) ∧
    ∀ slot ∈ x.waiting, slot < 32 → tget t.hands slot = .taken

/-- R141: what the loss of its call station does to zone `z`. It is in HOLD, its timers stop, the count known flag is clear, and a
play in progress ends. -/
def Sys2Proof.callsSilenced (s t : State) (z : Nat) : Prop :=
  let zc := tget t.zoneCalls z
  zc.play = .hold ∧ zc.known = false ∧ zc.timeout = none ∧ zc.pauseEnd = none ∧ zc.lingerEnd = none ∧
    ((tget s.zoneCalls z).play = .playing → (tget t.zones z).playEnd = s.deckClock)

/-- R42, R46: what the silence of station `n` does to the unit that it serves, in any event that brings it. STATION SILENT is
raised on its cell. A door that a ramp names as its cover, which no checked configuration has, is left aside. -/
def Sys2Proof.unitSilenced (s t : State) (n : Nat) : Prop :=
  let kind := (workingOf s.toDeck n).kind
  (kind ∈ [.ramp, .panel, .door] → attended s t n) ∧ (kind = .call → heeded s n → attended s t n) ∧
    (kind = .ramp → ∀ u, rampsNaming s.ram (fun c => c.station) n = [u] → rampSilenced s t u) ∧
    (kind = .panel → ∀ u, rampsNaming s.ram (fun c => c.panel) n = [u] → panelSilenced s t u) ∧
    (kind = .door → ∀ b, doorsNaming s.ram n = [b] → (∀ u < 4, coverOf s.ram u ≠ some b) → doorSilenced s t b) ∧
    (kind = .call → ∀ z, zoneOfStation s.ram n = some z → callsSilenced s t z)

/-- What the silence of station `n` leaves alone, and the silent notices of its zone (R79, R132), when no other station falls
SILENT in the event: the loss of a ramp station, a panel or a door changes no other ramp and no other boundary, and that of a
call station ends the unheard WARNING of each ramp that it served, and otherwise only puts its zone on hold. -/
def Sys2Proof.silencedAlone (s t : State) (n : Nat) : Prop :=
  let kind := (workingOf s.toDeck n).kind
  (kind = .ramp → ∀ u, rampsNaming s.ram (fun c => c.station) n = [u] →
    let r := tget s.ramps u
    (∀ v < 4, v ≠ u → tget t.ramps v = tget s.ramps v) ∧
      (∀ b < 24, coverOf s.ram u ≠ some b → tget t.boundaries b = tget s.boundaries b) ∧
      (r.state ≠ .warning → r.state.moves = false → r.deadmanHeld = false →
        tget t.ramps u = rewriteRamp false r { arithmeticLost r with permit := false } ∧ t.boundaries = s.boundaries)) ∧
    (kind = .panel → ∀ u, rampsNaming s.ram (fun c => c.panel) n = [u] →
      let r := tget s.ramps u
      (∀ v < 4, v ≠ u → tget t.ramps v = tget s.ramps v) ∧
        (∀ b < 24, coverOf s.ram u ≠ some b → tget t.boundaries b = tget s.boundaries b) ∧
        (r.state.moves = false ∨ r.control = .bridge →
          tget t.ramps u = rewriteRamp false r { r with request := .none, requestTimer := none } ∧
            ∀ b, coverOf s.ram u = some b →
              tget t.boundaries b =
                rewriteBoundary false (tget s.boundaries b) { tget s.boundaries b with occupancy := true })) ∧
    (kind = .door → ∀ b, doorsNaming s.ram n = [b] →
      t.ramps = s.ramps ∧ ∀ d < 24, d ≠ b → tget t.boundaries d = tget s.boundaries d) ∧
    (kind = .call → s.warningSetsAgree → ∀ z, zoneOfStation s.ram n = some z →
      let unheard := fun u => (tget s.ramps u).state = .warning ∧ (tget s.ramps u).heard = false
      (∀ u ∈ silencedRamps s.env z s.toDeck, unheard u →
        (tget t.ramps u).entered s.deckClock (tget s.ramps u).rest (tget s.ramps u).restReason ∧
          movementEnded s t u .refusedInterlock 9) ∧
        ((∀ u ∈ silencedRamps s.env z s.toDeck, ¬ unheard u) →
          t.ramps = s.ramps ∧ t.boundaries = s.boundaries ∧ (tget t.zoneCalls z).queue = (tget s.zoneCalls z).queue ∧
            outputOf t.toDeck n =
              .call { callOutputOf s.toDeck n with message := 0, stop := true, lamp := headLamp s.toDeck z }))

/-- An event that brings no silence leaves the ramps, the boundaries and the zone calls. -/
def Sys2Proof.unitsUntouched (s t : State) : Prop :=
  t.ramps = s.ramps ∧ t.boundaries = s.boundaries ∧ (s.warningSetsAgree → t.zoneCalls = s.zoneCalls)

/-! ## Line orders and station orders -/

/-- ISOLATE LINE (R27): refused while the other line is ISOLATED or IDLE; on an ISOLATED line it completes OK and changes no
state; otherwise the line enters ISOLATED with its work abandoned and its switched-station list emptied, every station on it
moves to the other line, no other station moves, and the order completes OK. A station that is moved to a JAMMED line, or to
one on which it is LOST, falls SILENT (R40, R42), and the unit that it serves stops as R67, R94, R95, R113 and R141 say; an
event that brings no silence leaves the ramps, the boundaries and the zone calls. RESTORE LINE (R28): an ISOLATED line enters
RUNNING with an empty slot pattern, a line in any other state stays in it, no station moves, and the order completes OK. The
order of the hand-overs of one event is log entry 7; the control and the target of a ramp that is free are log entry 13, the
moment of the detail of an ended movement is log entry 14, and the stamp of a ramp held again is log entry 28. -/
def Obligations.IsolateAndRestoreMoveTheLine : Prop :=
  (∀ (s : State) (slot : Nat), s.takes 8 slot →
    let l := lineOfCode (slotTarget s.ram slot)
    let other := (lineOf s.toDeck (flipLine l)).state
    ∃ t, exec .isolateLine s = .next t ∧ taken s t slot ∧ t.hostSide = s.hostSide ∧ t.serviceSide = s.serviceSide ∧
      (other = .isolated ∨ other = .idle →
        completed s t slot .refusedBusy [] ∧ (lineOf t.toDeck l).state = (lineOf s.toDeck l).state) ∧
      (other = .running ∨ other = .jammed → (lineOf s.toDeck l).state = .isolated →
        completed s t slot .ok [] ∧ (lineOf t.toDeck l).apart = (lineOf s.toDeck l).apart ∧ t.stations = s.stations) ∧
      (other = .running ∨ other = .jammed → (lineOf s.toDeck l).state ≠ .isolated →
        completed s t slot .ok [] ∧ (lineOf t.toDeck l).state = .isolated ∧
          (lineOf t.toDeck l).stateStamp = s.deckClock ∧ (lineOf t.toDeck l).activity = .quiet ∧
          (lineOf t.toDeck l).switched = [] ∧ (lineOf t.toDeck (flipLine l)).state = other ∧
          ∀ n ∈ addresses,
            let a := stationOf s.toDeck n
            let b := stationOf t.toDeck n
            b.current = (if n ∈ stationsOn s.toDeck l then flipLine l else a.current) ∧
              (n ∉ stationsOn s.toDeck l → b.apart = a.apart) ∧
              (n ∈ stationsOn s.toDeck l →
                b.on (flipLine l) = (if other = .jammed then { health := .lost, missRun := 3, recoveryRun := 0 }
                                     else a.on (flipLine l)) ∧
                  (b.silent = true ↔ a.silent = true ∨ other = .jammed ∨ (a.on (flipLine l)).health = .lost))) ∧
      (∀ n ∈ addresses, fellSilent s t n → (stationOf t.toDeck n).established = false ∧ unitSilenced s t n) ∧
      ((∀ n ∈ addresses, ¬ fellSilent s t n) → unitsUntouched s t)) ∧
  ∀ (s : State) (slot : Nat), s.takes 9 slot →
    let l := lineOfCode (slotTarget s.ram slot)
    ∃ t, exec .restoreLine s = .next t ∧ taken s t slot ∧ completed s t slot .ok [] ∧ t.hostSide = s.hostSide ∧
      t.serviceSide = s.serviceSide ∧ t.stations = s.stations ∧ unitsUntouched s t ∧
      (lineOf t.toDeck (flipLine l)).apart = (lineOf s.toDeck (flipLine l)).apart ∧
      ((lineOf s.toDeck l).state = .isolated →
        (lineOf t.toDeck l).apart =
          ({ lineOf s.toDeck l with state := .running, stateStamp := s.deckClock, pattern := {} } : Line).apart) ∧
      ((lineOf s.toDeck l).state ≠ .isolated → (lineOf t.toDeck l).apart = (lineOf s.toDeck l).apart)

/-- TEST STATION (R29, R49): a line parameter other than 0 and 1 completes REFUSED-TARGET; otherwise the order is in hand and
its request, with the kind that the station table holds now, waits last on its line, or becomes the exchange of an IDLE line
that has nothing in hand and nothing waiting while no START SERVICE is TAKEN. That a request made while one is TAKEN waits is
the model's (log entry 12). -/
def Obligations.TestStationRequestsAnExchange : Prop :=
  ∀ (s : State) (slot : Nat), s.takes 12 slot →
    let addr := slotTarget s.ram slot
    let param := slotByte s.ram slot 8
    ∃ t, exec .testStation s = .next t ∧ taken s t slot ∧ t.hostSide = s.hostSide ∧ t.serviceSide = s.serviceSide ∧
      t.stations = s.stations ∧
      (1 < param → completed s t slot .refusedTarget []) ∧
      ∀ l, param = lineNumber l →
        let x := lineOf s.toDeck l
        inHand s t slot ∧ (lineOf t.toDeck l).state = x.state ∧
          (x.state ≠ .idle ∨ x.activity ≠ .quiet ∨ s.starting ≠ none →
            (lineOf t.toDeck l).tests = x.tests ++ [⟨addr, tableKind s.ram addr, slot⟩]) ∧
          (x.state = .idle → x.activity = .quiet → s.starting = none → x.tests = [] →
            (lineOf t.toDeck l).tests = [] ∧
              (lineOf t.toDeck l).activity =
                .exchange { addr := addr, kind := tableKind s.ram addr, rate := testRate s.ram, next := x.pattern,
                            test := some slot, phase := .idleWait })

/-- UNMUTE STATION (R152): taken in SERVICE and SAFE-HOLD and refused in SETUP with REFUSED-STATE; a target outside 1 to 48,
or without a kind in the working copy, is REFUSED-TARGET; otherwise the muted flag of the station is cleared and its muted
count becomes 0, with a rewrite when either changes, and the order completes OK whether or not it was muted. No other
station and no attention cell changes. -/
def Obligations.UnmuteStationClearsTheMute : Prop :=
  ∀ (s : State) (slot : Nat), s.offers 16 slot →
    let addr := slotTarget s.ram slot
    let configured := 1 ≤ addr ∧ addr ≤ 48 ∧ (workingOf s.toDeck addr).kind ≠ .none
    ∃ t, exec .unmuteStation s = .next t ∧ taken s t slot ∧ t.hostSide = s.hostSide ∧ t.serviceSide = s.serviceSide ∧
      t.cells = s.cells ∧ t.ramps = s.ramps ∧
      (s.partState = .setup → completed s t slot .refusedState [0] ∧ t.stations = s.stations) ∧
      (s.partState ≠ .setup → ¬ configured →
        completed s t slot .refusedTarget [byteOf addr] ∧ t.stations = s.stations) ∧
      (s.partState ≠ .setup → configured →
        completed s t slot .ok [] ∧
          ∀ n ∈ addresses, stationOf t.toDeck n =
            if n = addr ∧ ((stationOf s.toDeck n).muted = true ∨ (stationOf s.toDeck n).mutedCount ≠ 0) then
              { stationOf s.toDeck n with
                muted := false, mutedCount := 0, edition := (stationOf s.toDeck n).edition + 2 }
            else stationOf s.toDeck n)

/-! ## Replies -/

/-- The command `c` ends the exchange `y` of line `l` with an outcome and a payload: no reply, a truncated reply, a faulty
character or length, or a complete frame by its class (R20 to R22). -/
def Sys2Proof.endsExchange (l : LineId) (y : Exchange) (c : Instr) (o : ExchangeOutcome) (payload : List Byte) : Prop :=
  (c = .noReply l ∧ y.phase = .replyWait ∧ o = .noReply ∧ payload = []) ∨
    (c = .truncated l ∧ (∃ d, y.phase = .reception d) ∧ o = .truncated ∧ payload = []) ∨
    (∃ chars d, c = .receptionFault l chars ∧ y.phase = .reception d ∧ receive chars = .faulty o ∧ payload = []) ∨
    ∃ chars d head length check, c = .replyFrame l chars ∧ y.phase = .reception d ∧
      receive chars = .complete head length payload check ∧ o = classify y.kind y.addr head length payload check

/-- The command `c` is a GOOD reply in RUNNING of a station of a kind, SILENT or not (R22). -/
def Sys2Proof.replyTaken (s : State) (kind : StationKind) (l : LineId) (y : Exchange) (c : Instr) (payload : List Byte) : Prop :=
  s.power = .running ∧ (lineOf s.toDeck l).activity = .exchange y ∧ y.test = none ∧ y.addr ∈ addresses ∧
    endsExchange l y c .good payload ∧ (workingOf s.toDeck y.addr).kind = kind

/-- The command `c` is a GOOD reply in RUNNING of a station of a kind that is not SILENT (R22, R43). -/
def Sys2Proof.goodReply (s : State) (kind : StationKind) (l : LineId) (y : Exchange) (c : Instr) (payload : List Byte) : Prop :=
  replyTaken s kind l y c payload ∧ (stationOf s.toDeck y.addr).silent = false

/-- The same of a station that is established (R45), with the memory canonical and the orders in hand apart. -/
def Sys2Proof.jobReply (s : State) (kind : StationKind) (l : LineId) (y : Exchange) (c : Instr) (payload : List Byte) : Prop :=
  goodReply s kind l y c payload ∧ (stationOf s.toDeck y.addr).established = true ∧ s.memoryCanonical ∧ s.ordersHeld

/-- The inputs of a station after a GOOD reply with a payload (R44). -/
def Sys2Proof.inputsAfter (s : State) (addr : Nat) (payload : List Byte) : Vector InputCell 5 :=
  let kind := (workingOf s.toDeck addr).kind
  confirmInputs kind (inputBits kind payload) (stationOf s.toDeck addr).inputs

/-- The confirmed inputs that the reply changes, with their new values (R46). -/
def Sys2Proof.changesOf (s : State) (addr : Nat) (payload : List Byte) : List (Nat × Bool) :=
  changedInputs (stationOf s.toDeck addr).inputs (inputsAfter s addr payload)

/-- Input `i` of the station is confirmed set after the reply. -/
def Sys2Proof.setAfter (s : State) (addr : Nat) (payload : List Byte) (i : Nat) : Bool :=
  (tget (inputsAfter s addr payload) i).confirmed == some true

/-! ## Ramp orders -/

/-- R78: a ramp that entered WARNING with a movement of source ORDER, from the ramp `r`. -/
def Sys2Proof.warningBegun (s : State) (r r' : Ramp) (c : RampConfig) (slot : Nat) (m : Movement) (control : Nat) (target : Int) :
    Prop :=
  r'.entered s.deckClock .warning .none ∧ r'.source = .order ∧ r'.slot = slot ∧ some r'.control = controlOf control ∧
    r'.movement = m ∧ r'.target = target ∧ r'.rest = r.state ∧ r'.heard = false ∧ r'.permit = false ∧
    r'.prewarnEnd = some (after s.deckClock (c.motionPrewarn * 1000)) ∧ r'.dwell = false ∧ r'.motionWant = true ∧
    r'.request = .none

/-- R87: a movement of source ORDER that takes the place of the one that ramp `r` had in hand. In WARNING the prewarn goes on;
in a motion state and in a deadman hold the ramp enters WARNING for a dwell of 1 s. -/
def Sys2Proof.movementReversed (s : State) (r r' : Ramp) (slot : Nat) (m : Movement) (control : Nat) (target : Int) : Prop :=
  (r.state = .warning → r.prewarnEnd ≠ none →
    r'.state = .warning ∧ r'.source = .order ∧ r'.slot = slot ∧ some r'.control = controlOf control ∧ r'.movement = m ∧
      r'.target = target ∧ r'.prewarnEnd = r.prewarnEnd ∧ r'.rest = r.rest ∧ r'.heard = r.heard) ∧
    (r.state ≠ .warning →
      r'.entered s.deckClock .warning .none ∧ r'.source = .order ∧ r'.slot = slot ∧
        some r'.control = controlOf control ∧ r'.movement = m ∧ r'.target = target ∧ r'.heard = true ∧
        r'.prewarnEnd = some (after s.deckClock 1000) ∧ r'.dwell = true ∧ r'.rest = .held ∧ r'.restReason = .order)

/-- RAMP LOWER (R75): a mode or control above 1 completes REFUSED-TARGET, with the target of its mode in the detail (R74), or 0
for a mode that is none (log entry 14); a busy ramp that lowers, REFUSED-BUSY; in LANDED, mode
LAND completes OK and TO ANGLE is refused by RAMP STATE; in HELD with the tip touching, mode LAND lands at once; a failing
interlock refuses it with its code; and otherwise a ramp at rest enters WARNING with the order in hand, and the raising of a
busy ramp is superseded and turned round. The moment of a superseded detail is log entry 14, the traffic check with an angle
that is not valid is log entry 15, and the warning heard flag after a reversal is log entry 40. -/
def Obligations.RampLowerStartsAWarning : Prop :=
  ∀ (s : State) (slot : Nat), s.takes 20 slot →
    let u := slotTarget s.ram slot
    let mode := slotByte s.ram slot 8
    let control := slotByte s.ram slot 9
    let c := rampConfig s.ram u
    let r := tget s.ramps u
    let m : Movement := if mode = 0 then .lowerLand else .lowerToAngle
    let target := if mode = 0 then c.landingEstimate else clampTarget c (slotAngle s.ram slot 10)
    let lowering := r.busy = true ∧ r.movement.lowers = true
    let touches := landsAtOnce s.env u m s.toDeck
    ∃ t, exec .rampLower s = .next t ∧ taken s t slot ∧ t.hostSide = s.hostSide ∧ t.serviceSide = s.serviceSide ∧
      (1 < mode ∨ 1 < control →
        completed s t slot .refusedTarget (motionDetail 0 (if mode ≤ 1 then target else 0) r) ∧ t.ramps = s.ramps) ∧
      (mode ≤ 1 → control ≤ 1 →
        (lowering → completed s t slot .refusedBusy (motionDetail 0 target r) ∧ t.ramps = s.ramps) ∧
        (¬ lowering → r.state = .landed →
          t.ramps = s.ramps ∧ (mode = 0 → completed s t slot .ok (motionDetail 0 target r)) ∧
            (mode = 1 → completed s t slot .refusedInterlock (motionDetail 2 target r))) ∧
        (touches = true →
          (tget t.ramps u).entered s.deckClock .landed .none ∧ (tget t.ramps u).landingAngle = r.angle ∧
            (tget t.ramps u).permit = withinTraffic c r ∧
            completed s t slot .ok (motionDetail 0 target (tget t.ramps u))) ∧
        (¬ lowering → r.state ≠ .landed → touches = false →
          ∀ ctl, controlOf control = some ctl →
            (∀ code, interlock s.env u true m ctl target s.toDeck = some code →
              completed s t slot .refusedInterlock (motionDetail code target r) ∧ t.ramps = s.ramps) ∧
            (interlock s.env u true m ctl target s.toDeck = none →
              (r.busy = false → inHand s t slot ∧ warningBegun s r (tget t.ramps u) c slot m control target ∧
                (r.wants = false → (tget t.records (26 + u)).state = .active)) ∧
              (r.busy = true → movementReversed s r (tget t.ramps u) slot m control target ∧
                (r.state ≠ .warning ∨ r.prewarnEnd ≠ none → inHand s t slot) ∧
                (r.source = .order → completed s t r.slot .superseded (motionDetail 0 r.target r))))))

/-- RAMP RAISE (R76): a control above 1 completes REFUSED-TARGET; a busy ramp that raises, REFUSED-BUSY; in STOWED it completes
OK; in HELD with the ramp stowed and locked the ramp enters STOWED and the order completes OK; a failing interlock refuses it
with its code; and otherwise a ramp at rest enters WARNING with the order in hand, and the lowering of a busy ramp is
superseded and turned round. Every detail has the stow angle as its target (R74). The moment of a superseded detail is log
entry 14, and the warning heard flag after a reversal is log entry 40. -/
def Obligations.RampRaiseStartsAWarning : Prop :=
  ∀ (s : State) (slot : Nat), s.takes 21 slot →
    let u := slotTarget s.ram slot
    let control := slotByte s.ram slot 9
    let c := rampConfig s.ram u
    let r := tget s.ramps u
    let raising := r.busy = true ∧ r.movement = .raise
    let stows := r.state = .held ∧ r.busy = false ∧ fullyStowed s.env u s.toDeck = true
    ∃ t, exec .rampRaise s = .next t ∧ taken s t slot ∧ t.hostSide = s.hostSide ∧ t.serviceSide = s.serviceSide ∧
      (1 < control → completed s t slot .refusedTarget (motionDetail 0 c.stowAngle r) ∧ t.ramps = s.ramps) ∧
      (control ≤ 1 →
        (raising → completed s t slot .refusedBusy (motionDetail 0 c.stowAngle r) ∧ t.ramps = s.ramps) ∧
        (¬ raising → r.state = .stowed → completed s t slot .ok (motionDetail 0 c.stowAngle r) ∧ t.ramps = s.ramps) ∧
        (stows →
          (tget t.ramps u).entered s.deckClock .stowed .none ∧
            completed s t slot .ok (motionDetail 0 c.stowAngle (tget t.ramps u))) ∧
        (¬ raising → r.state ≠ .stowed → ¬ stows →
          ∀ ctl, controlOf control = some ctl →
            (∀ code, interlock s.env u true .raise ctl c.stowAngle s.toDeck = some code →
              completed s t slot .refusedInterlock (motionDetail code c.stowAngle r) ∧ t.ramps = s.ramps) ∧
            (interlock s.env u true .raise ctl c.stowAngle s.toDeck = none →
              (r.busy = false → inHand s t slot ∧ warningBegun s r (tget t.ramps u) c slot .raise control c.stowAngle ∧
                (r.wants = false → (tget t.records (26 + u)).state = .active)) ∧
              (r.busy = true → movementReversed s r (tget t.ramps u) slot .raise control c.stowAngle ∧
                (r.state ≠ .warning ∨ r.prewarnEnd ≠ none → inHand s t slot) ∧
                (r.source = .order → completed s t r.slot .superseded (motionDetail 0 r.target r))))))

/-- RAMP STOP (R86): WARNING ends in the rest state and a movement stops in HELD with reason ORDER, the order in hand
completing STOPPED; FAULTED is left for STOWED or HELD by the switches; any other state stays; a pending request ends; and the
order itself completes OK. Panel STOP (R85), at the report that confirms it set: the permit and a pending request end, a busy
ramp stops in HELD with reason STOP, and the attention goes on the panel station's cell. The control and the target of a ramp
that is free are log entry 13, the moment of the detail of an ended movement is log entry 14, the request stamp kept is log
entry 25, and the stamp of a ramp held again is log entry 28. That a panel STOP leaves no request also when the same report
confirms a request button is log entry 16, and that the motion want is clear also on a return to HELD with reason DEADMAN is
log entry 24. -/
def Obligations.RampStopStopsTheMovement : Prop :=
  (∀ (s : State) (slot : Nat), s.takes 22 slot →
    let u := slotTarget s.ram slot
    let r := tget s.ramps u
    ∃ t, exec .rampStop s = .next t ∧ taken s t slot ∧ completed s t slot .ok [] ∧ t.hostSide = s.hostSide ∧
      t.serviceSide = s.serviceSide ∧ (tget t.ramps u).request = .none ∧
      (r.state = .warning →
        (tget t.ramps u).entered s.deckClock r.rest r.restReason ∧ movementEnded s t u .stopped 0) ∧
      (r.state.moves = true ∨ r.deadmanHeld = true →
        (tget t.ramps u).entered s.deckClock .held .order ∧ movementEnded s t u .stopped 0) ∧
      (r.state = .faulted →
        (fullyStowed s.env u s.toDeck = true → (tget t.ramps u).entered s.deckClock .stowed .none) ∧
          (fullyStowed s.env u s.toDeck = false → (tget t.ramps u).entered s.deckClock .held .order)) ∧
      (r.state ≠ .warning → r.state.moves = false → r.deadmanHeld = false → r.state ≠ .faulted →
        tget t.ramps u = rewriteRamp false r { r with request := .none, requestTimer := none })) ∧
  ∀ (s : State) (l : LineId) (y : Exchange) (c : Instr) (payload : List Byte) (u : Nat),
    jobReply s .panel l y c payload → rampsNaming s.ram (fun x => x.panel) y.addr = [u] →
    (3, true) ∈ changesOf s y.addr payload →
    let r := tget s.ramps u
    let r' := fun t : State => tget t.ramps u
    ∃ t, exec c s = .next t ∧ attended s t y.addr ∧ (r' t).permit = false ∧
      (r.busy = true →
        (r' t).entered s.deckClock .held .stop ∧ (r' t).request = .none ∧ movementEnded s t u .stopped 0) ∧
      (r.busy = false → r.deadmanHeld = false → (0, true) ∉ changesOf s y.addr payload →
        (1, true) ∉ changesOf s y.addr payload →
        r' t = rewriteRamp false r { r with permit := false, request := .none, requestTimer := none })

/-- RAMP TRAFFIC (R91): OFF clears the permit; ON with the permit set completes OK; ON is refused with the first failing code
and sets the permit when every check passes, which also ends the drift warning; a parameter above 1 is refused. That the checks
STEEP and DRIFT fail on an angle that is not valid is log entry 15. -/
def Obligations.RampTrafficSetsThePermit : Prop :=
  ∀ (s : State) (slot : Nat), s.takes 23 slot →
    let u := slotTarget s.ram slot
    let param := slotByte s.ram slot 8
    let r := tget s.ramps u
    ∃ t, exec .rampTraffic s = .next t ∧ taken s t slot ∧ t.hostSide = s.hostSide ∧ t.serviceSide = s.serviceSide ∧
      (param = 0 → completed s t slot .ok [] ∧ tget t.ramps u = rewriteRamp false r { r with permit := false }) ∧
      (param = 1 → r.permit = true → completed s t slot .ok [] ∧ t.ramps = s.ramps) ∧
      (param = 1 → r.permit = false → ∀ code, trafficCheck s.env u s.toDeck = some code →
        completed s t slot .refusedInterlock [byteOf code] ∧ t.ramps = s.ramps) ∧
      (param = 1 → r.permit = false → trafficCheck s.env u s.toDeck = none →
        completed s t slot .ok [] ∧
          tget t.ramps u = rewriteRamp false r { r with permit := true, driftWant := false } ∧ r.state = .landed) ∧
      (1 < param → completed s t slot .refusedTarget [] ∧ t.ramps = s.ramps)

/-! ## Boundary orders -/

/-- CLOSE BOUNDARY on a door (R104, R106): an urgency above 1 and a full waiting list refuse it; a door confirmed closed
completes it OK and a failed one FAULT, with the demand set; a door without a demand that stands open begins its prewarn; an
EMERGENCY order escalates a NORMAL demand, and a running prewarn is cut to the prewarn short when that ends earlier; a prewarn
whose end is reached then, or that is cut to nothing, ends in the same event, and the door enters CLOSING. -/
def Obligations.CloseBoundaryClosesADoor : Prop :=
  ∀ (s : State) (slot : Nat), s.takes 32 slot → (boundaryConfig s.ram (slotTarget s.ram slot)).isDoor = true →
    let b := slotTarget s.ram slot
    let urgency := slotByte s.ram slot 8
    let c := boundaryConfig s.ram b
    let x := tget s.boundaries b
    ∃ t, exec .closeBoundary s = .next t ∧ taken s t slot ∧ t.hostSide = s.hostSide ∧ t.serviceSide = s.serviceSide ∧
      t.ramps = s.ramps ∧
      (1 < urgency → completed s t slot .refusedTarget (boundaryDetail x) ∧ tget t.boundaries b = x) ∧
      ∀ d, urgencyOf urgency = some d →
        (8 ≤ x.waiting.length → completed s t slot .refusedBusy (boundaryDetail x) ∧ tget t.boundaries b = x) ∧
        (x.waiting.length < 8 →
          let y := tget t.boundaries b
          (x.demand = .none → y.demand = d ∧ y.obstructions = 0 ∧ y.openingMark = false) ∧
            (x.demand = .normal → y.demand = d) ∧ (x.demand = .emergency → y.demand = .emergency) ∧
            (x.state = .closed → atClosedEnd s.toDeck c = true →
              completed s t slot .ok (boundaryDetail y) ∧ y.state = .closed ∧ y.waiting = x.waiting) ∧
            (x.state = .failed → completed s t slot .fault (boundaryDetail y) ∧ y.state = .failed ∧ y.waiting = x.waiting) ∧
            (x.state ≠ .failed → ¬ (x.state = .closed ∧ atClosedEnd s.toDeck c = true) →
              inHand s t slot ∧ y.waiting = x.waiting ++ [slot] ∧
                (x.demand = .none → x.state = .opened ∨ x.state = .closed →
                  y.state = .prewarn ∧ y.stateStamp = s.deckClock ∧ y.drive = .holdOpen ∧ y.beacon = true ∧
                    y.prewarnEnd = some (after s.deckClock
                      ((if d = .emergency then c.prewarnShort else c.prewarnNormal) * 1000))) ∧
                (x.demand = .normal → d = .emergency → x.state = .prewarn → ∀ held, x.prewarnEnd = some held →
                  reached s.deckClock held = false → 0 < c.prewarnShort →
                  y.state = .prewarn ∧ y.prewarnEnd = some
                    (if (held - s.deckClock).toNat ≤ c.prewarnShort * 1000 then held
                     else after s.deckClock (c.prewarnShort * 1000))) ∧
                (x.demand = .normal → d = .emergency → x.state = .prewarn → ∀ held, x.prewarnEnd = some held →
                  reached s.deckClock held = true ∨ c.prewarnShort = 0 →
                  y.state = .closing ∧ y.stateStamp = s.deckClock ∧ y.drive = .close ∧
                    y.closingStart = some s.deckClock ∧ y.prewarnEnd = none)))

/-- R93: the ramp of cover `b` is STOWED already, or already raises or locks for source CLOSURE. -/
def Sys2Proof.raisesAlready (r : Ramp) : Prop :=
  r.state = .stowed ∨ (r.source = .closure ∧ (r.state = .raising ∨ r.state = .locking))

/-- R93, R116: a closure raise asked of the ramp of the demanded cover `b`. A ramp that is STOWED or raises for source CLOSURE
already is left alone, and the cover is CLOSING. A failing check blocks the cover with cause RAISE REFUSED; with none, the
ramp raises or locks for source CLOSURE and the cover is CLOSING, or a ramp that is stowed and locked enters STOWED at once,
and the cover that it names is CLOSED. -/
def Sys2Proof.closureAsked (s t : State) (b : Nat) : Prop :=
  let u := (boundaryConfig s.ram b).ramp
  let r := tget s.ramps u
  (tget s.boundaries b).demand ≠ .none →
    (raisesAlready r → (tget t.boundaries b).state = .closing ∧ t.ramps = s.ramps) ∧
      (¬ raisesAlready r →
        (∀ code, closureCheck s.env u s.toDeck = some code →
          (tget t.boundaries b).state = .blocked ∧ (tget t.boundaries b).blockCause = .raiseRefused ∧
            (tget t.boundaries b).blockDetail = code ∧ t.ramps = s.ramps) ∧
          (closureCheck s.env u s.toDeck = none → fullyStowed s.env u s.toDeck = false →
            (tget t.boundaries b).state = .closing ∧
              (tget t.ramps u).entered s.deckClock (if rampSwitch s.env u 0 s.toDeck = true then .locking else .raising)
                .none ∧
              (tget t.ramps u).source = .closure ∧ (tget t.ramps u).movement = .raise ∧ (tget t.ramps u).slot = 255 ∧
              (tget t.ramps u).target = (rampConfig s.ram u).stowAngle) ∧
          (closureCheck s.env u s.toDeck = none → fullyStowed s.env u s.toDeck = true →
            (tget t.ramps u).entered s.deckClock .stowed .none ∧ (tget t.ramps u).free ∧
              (coverOf s.ram u = some b →
                (tget t.boundaries b).state = .closed ∧ (tget t.boundaries b).waiting = [] ∧
                  (tget t.boundaries b).obstructions = 0)))

/-- What a closure order of urgency `d` in `slot` does to a cover `b` that has a demand already (R104, R106, R115): the demand is
the higher of the two, a CLOSED or FAILED cover settles the order, and any other takes it into its waiting list. An
EMERGENCY order on a NORMAL demand in PREWARN cuts the prewarn, and one that is over then ends in the same event. -/
def Sys2Proof.coverDemandedAgain (s t : State) (b slot : Nat) (d : Demand) : Prop :=
  let c := boundaryConfig s.ram b
  let x := tget s.boundaries b
  let y := tget t.boundaries b
  let waits := inHand s t slot ∧ y.waiting = x.waiting ++ [slot]
  let escalated := x.demand = .normal ∧ d = .emergency ∧ x.state = .prewarn
  y.demand = (if x.demand = .emergency then .emergency else d) ∧
    (x.state = .closed →
      completed s t slot .ok (boundaryDetail y) ∧ y.state = .closed ∧ y.waiting = x.waiting ∧ t.ramps = s.ramps) ∧
    (x.state = .failed →
      completed s t slot .fault (boundaryDetail y) ∧ y.state = .failed ∧ y.waiting = x.waiting ∧ t.ramps = s.ramps) ∧
    (x.state ≠ .closed → x.state ≠ .failed → ¬ escalated → waits ∧ y.state = x.state ∧ t.ramps = s.ramps) ∧
    (escalated → x.prewarnEnd = none → waits ∧ y.state = .prewarn ∧ t.ramps = s.ramps) ∧
    (escalated → ∀ held, x.prewarnEnd = some held →
      (reached s.deckClock held = false → 0 < c.prewarnShort →
        waits ∧ y.state = .prewarn ∧ t.ramps = s.ramps ∧ y.prewarnEnd = some
          (if (held - s.deckClock).toNat ≤ c.prewarnShort * 1000 then held
           else after s.deckClock (c.prewarnShort * 1000))) ∧
      (reached s.deckClock held = true ∨ c.prewarnShort = 0 →
        (x.occupancy = true → waits ∧ y.state = .blocked ∧ y.blockCause = .occupied ∧ y.blockDetail = 0 ∧
          y.prewarnEnd = none ∧ t.ramps = s.ramps) ∧
        (x.occupancy = false → closureAsked s t b ∧ y.prewarnEnd = none ∧ (y.state ≠ .closed → waits) ∧
          (y.state = .closed → completed s t slot .ok [byteOf BoundaryState.closed.code, byteOf d.code, byteOf x.obstructions]))))

/-- CLOSE BOUNDARY on a cover that its ramp names too (R104, R106, R115, R92): the refusals are those of a door. A new demand
finds the cover CLOSED with its ramp STOWED (the order completes OK), FAILED with it FAULTED (FAULT), UNKNOWN with it UNKNOWN,
and in PREWARN with it at rest elsewhere or moving; a movement is superseded and held with reason COVER, and the permit and a
pending request end. A demand that stands already is escalated, or only takes the order in. The control and the target of a
ramp that is free are log entry 13, the moment of the detail of an ended movement is log entry 14, that its motion want is
clear also on a return to HELD with reason DEADMAN is log entry 24, and the stamp of a ramp held again is log entry 28. -/
def Obligations.CloseBoundaryClosesACover : Prop :=
  ∀ (s : State) (slot : Nat), s.takes 32 slot → (boundaryConfig s.ram (slotTarget s.ram slot)).isCover = true →
    let b := slotTarget s.ram slot
    let urgency := slotByte s.ram slot 8
    let c := boundaryConfig s.ram b
    let x := tget s.boundaries b
    let u := c.ramp
    let r := tget s.ramps u
    coverOf s.ram u = some b →
    ∃ t, exec .closeBoundary s = .next t ∧ taken s t slot ∧ t.hostSide = s.hostSide ∧ t.serviceSide = s.serviceSide ∧
      (1 < urgency →
        completed s t slot .refusedTarget (boundaryDetail x) ∧ tget t.boundaries b = x ∧ t.ramps = s.ramps) ∧
      ∀ d, urgencyOf urgency = some d →
        (8 ≤ x.waiting.length →
          completed s t slot .refusedBusy (boundaryDetail x) ∧ tget t.boundaries b = x ∧ t.ramps = s.ramps) ∧
        (x.waiting.length < 8 → x.demand ≠ .none → u < 4 → coverDemandedAgain s t b slot d) ∧
        (x.waiting.length < 8 → x.demand = .none → u < 4 →
          let y := tget t.boundaries b
          let r' := tget t.ramps u
          y.demand = d ∧ r'.permit = false ∧ r'.request = .none ∧
            (r.state = .stowed → y.state = .closed ∧ completed s t slot .ok (boundaryDetail y)) ∧
            (r.state = .faulted → y.state = .failed ∧ completed s t slot .fault (boundaryDetail y)) ∧
            (r.state = .unknown → y.state = .unknown ∧ inHand s t slot ∧ slot ∈ y.waiting) ∧
            (r.state = .landed ∨ r.state = .held ∨ r.state.moves = true →
              y.state = .prewarn ∧ inHand s t slot ∧ slot ∈ y.waiting ∧ r'.coverWant = true ∧
                y.prewarnEnd = some (after s.deckClock
                  ((if d = .emergency then c.prewarnShort else c.prewarnNormal) * 1000))) ∧
            (r.state = .warning → r'.entered s.deckClock r.rest r.restReason ∧ movementEnded s t u .superseded 0) ∧
            (r.state.moves = true ∨ r.deadmanHeld = true →
              r'.entered s.deckClock .held .cover ∧ movementEnded s t u .superseded 0))

/-- The mask of the boundaries of a list that stand in a state and hold the order of `slot` no longer (R120). -/
def Sys2Proof.settledMask (t : State) (slot : Nat) (st : BoundaryState) (bs : List Nat) : BitVec 32 :=
  bs.foldl
    (fun mask b =>
      let y := tget t.boundaries b
      if y.state == st && !y.waiting.contains slot then mask ||| boundaryBit b else mask) 0

/-- Each boundary of a list is a door, or a cover that the ramp it names has as its cover (R98, R69). -/
def Sys2Proof.fittedBoundaries (m : Memory) (bs : List Nat) : Prop :=
  ∀ b ∈ bs, b < 24 ∧
    ((boundaryConfig m b).isDoor = true ∨
      ((boundaryConfig m b).isCover = true ∧ (boundaryConfig m b).ramp < 4 ∧ coverOf m (boundaryConfig m b).ramp = some b))

/-- CLOSE ZONE (R120): a bad urgency and a zone without boundaries complete REFUSED-TARGET, and a full waiting list
REFUSED-BUSY with its boundary; otherwise every boundary of the zone takes the demand. The closed mask then has the bits of
the boundaries of the zone that are CLOSED and hold the order no longer, and the failed mask those that are FAILED; the
order stays in hand with its masks while some boundary waits for it, and completes with them when none does, OK when no bit
of the failed mask is set and PARTIAL otherwise. That REFUSED-BUSY names the first full boundary in adjacency entry order is
the model's choice (log entry 47). -/
def Obligations.CloseZoneDemandsItsBoundaries : Prop :=
  ∀ (s : State) (slot : Nat), s.takes 33 slot →
    let bs := zoneBoundaries s.ram (slotTarget s.ram slot)
    let urgency := slotByte s.ram slot 8
    ∃ t, exec .closeZone s = .next t ∧ taken s t slot ∧ t.hostSide = s.hostSide ∧ t.serviceSide = s.serviceSide ∧
      (1 < urgency ∨ bs = [] → completed s t slot .refusedTarget [] ∧ t.boundaries = s.boundaries ∧ t.ramps = s.ramps) ∧
      ∀ d, urgencyOf urgency = some d → bs ≠ [] →
        (∀ b, bs.find? (fun b => decide (8 ≤ (tget s.boundaries b).waiting.length)) = some b →
          completed s t slot .refusedBusy [byteOf b] ∧ t.boundaries = s.boundaries ∧ t.ramps = s.ramps) ∧
        ((∀ b ∈ bs, (tget s.boundaries b).waiting.length < 8) →
          (∀ b ∈ bs, b < 24 → (tget t.boundaries b).demand =
            if (tget s.boundaries b).demand = .emergency then .emergency else d) ∧
          (isWaiting t.toDeck slot = true → inHand s t slot ∧ (tget t.zoneOrders slot).inHand = true) ∧
          (isWaiting t.toDeck slot = false → tget t.hands slot = .done ∨ tget t.hands slot = .empty) ∧
          (fittedBoundaries s.ram bs →
            let closed := settledMask t slot .closed bs
            let failed := settledMask t slot .failed bs
            (isWaiting t.toDeck slot = true →
              tget t.zoneOrders slot = { inHand := true, closedMask := closed, failedMask := failed }) ∧
              (isWaiting t.toDeck slot = false →
                completed s t slot (if failed = 0 then .ok else .partly) (stampBytes closed ++ stampBytes failed))))

/-- RELEASE BOUNDARY (R111, R112, R119): the order completes OK; a boundary without a demand keeps its state; otherwise the
demand and the obstruction count are cleared, every waiting CLOSE BOUNDARY and CLOSE ZONE completes CANCELLED, a door on its
way or in PREWARN returns to OPEN, and a cover takes the state of its ramp. The control and the target of a ramp whose closure
movement the release ends are log entry 13. -/
def Obligations.ReleaseBoundaryCancelsItsOrders : Prop :=
  ∀ (s : State) (slot : Nat), s.takes 34 slot →
    let b := slotTarget s.ram slot
    let c := boundaryConfig s.ram b
    let x := tget s.boundaries b
    ∃ t, exec .releaseBoundary s = .next t ∧ taken s t slot ∧ completed s t slot .ok [] ∧ t.hostSide = s.hostSide ∧
      t.serviceSide = s.serviceSide ∧
      (x.demand = .none → tget t.boundaries b = x ∧ t.ramps = s.ramps) ∧
      (x.demand ≠ .none →
        let y := tget t.boundaries b
        y.demand = .none ∧ y.obstructions = 0 ∧ y.waiting = [] ∧ y.prewarnEnd = none ∧ y.closingStart = none ∧
          y.holdEnd = none ∧ y.capEnd = none ∧ y.reversalEnd = none ∧ y.stateStamp = s.deckClock ∧
          (∀ k ∈ x.waiting, k < 32 →
            ((tget s.zoneOrders k).inHand = false → completed s t k .cancelled [byteOf x.state.code, 0, 0]) ∧
              ((tget s.zoneOrders k).inHand = true →
                completed s t k .cancelled (zoneDetail (tget s.zoneOrders k)) ∧ isWaiting t.toDeck k = false)) ∧
          (c.isDoor = true →
            t.ramps = s.ramps ∧
              (x.state = .prewarn ∨ x.state = .closing ∨ x.state = .reversing ∨ x.state = .passage →
                y.state = .opened ∧ y.openingMark = !atOpenEnd s.toDeck c) ∧
              (x.state = .closed → y.state = (if atOpenEnd s.toDeck c = true then .opened else .closed) ∧
                y.openingMark = !atOpenEnd s.toDeck c) ∧
              (x.state = .failed → y.state =
                if atOpenEnd s.toDeck c = true then .opened else if atClosedEnd s.toDeck c = true then .closed
                else .failed) ∧
              (x.state = .unknown → y.state = .unknown)) ∧
          (c.isCover = true → coverOf s.ram c.ramp = some b →
            y.state = coverAtRest (tget t.ramps c.ramp).state ∧ (tget t.ramps c.ramp).coverWant = false ∧
              ((tget s.ramps c.ramp).source = .closure →
                (tget s.ramps c.ramp).state = .raising ∨ (tget s.ramps c.ramp).state = .locking →
                (tget t.ramps c.ramp).entered s.deckClock .held .cover ∧ (tget t.ramps c.ramp).free)))

/-- FORCE COVER (R118): a door is refused as a target; a BLOCKED cover asks for its raise whatever the occupancy, and the order
completes OK, or REFUSED-INTERLOCK with the failing code; a ramp that is STOWED or raises for the closure already answers
without a check (R93); a CLOSING or CLOSED cover completes it OK; and a cover in any other state completes it REFUSED-BUSY.
The control and the target of a ramp that is STOWED at once are log entry 13. -/
def Obligations.ForceCoverAsksForTheRaise : Prop :=
  ∀ (s : State) (slot : Nat), s.takes 35 slot →
    let b := slotTarget s.ram slot
    let c := boundaryConfig s.ram b
    let x := tget s.boundaries b
    let r := tget s.ramps c.ramp
    ∃ t, exec .forceCover s = .next t ∧ taken s t slot ∧ t.hostSide = s.hostSide ∧ t.serviceSide = s.serviceSide ∧
      (c.isCover = false → completed s t slot .refusedTarget [] ∧ t.boundaries = s.boundaries ∧ t.ramps = s.ramps) ∧
      (c.isCover = true → x.state = .closing ∨ x.state = .closed →
        completed s t slot .ok [] ∧ t.boundaries = s.boundaries ∧ t.ramps = s.ramps) ∧
      (c.isCover = true → x.state ≠ .blocked → x.state ≠ .closing → x.state ≠ .closed →
        completed s t slot .refusedBusy [] ∧ t.boundaries = s.boundaries ∧ t.ramps = s.ramps) ∧
      (c.isCover = true → x.state = .blocked →
        closureAsked s t b ∧ (raisesAlready r → completed s t slot .ok []) ∧
          (¬ raisesAlready r →
            (∀ code, closureCheck s.env c.ramp s.toDeck = some code →
              completed s t slot .refusedInterlock [byteOf code]) ∧
              (closureCheck s.env c.ramp s.toDeck = none → completed s t slot .ok [])))

/-! ## Calls -/

/-- CALL (R127): an empty zone mask completes REFUSED-TARGET with detail 1, a message that the catalogue does not define with
detail 2, and a full table TABLE-FULL; otherwise the lowest FREE bridge record takes the call, every zone of the mask without
a call station ends NO STATION, and the order stays in hand while a zone is PENDING and completes with the outcomes when none
is. -/
def Obligations.CallTakesARecord : Prop :=
  ∀ (s : State) (slot : Nat), s.takes 40 slot →
    let message := slotByte s.ram slot 8
    let priority := slotByte s.ram slot 9
    let repeats := slotByte s.ram slot 10
    let zones := slotWord s.ram slot 12
    let undefined := message = 0 ∨ 63 < message ∨ (tget s.catalogue message).duration = 0
    ∃ t, exec .call s = .next t ∧ taken s t slot ∧ t.hostSide = s.hostSide ∧ t.serviceSide = s.serviceSide ∧
      t.ramps = s.ramps ∧ t.boundaries = s.boundaries ∧
      (zones = 0 → completed s t slot .refusedTarget [1]) ∧
      (zones ≠ 0 → undefined → completed s t slot .refusedTarget [2]) ∧
      (zones ≠ 0 → ¬ undefined → (∀ r < 26, (tget s.records r).state ≠ .free) → completed s t slot .tableFull []) ∧
      (zones ≠ 0 → ¬ undefined → ∀ r < 26, (tget s.records r).state = .free →
        (∀ q < r, (tget s.records q).state ≠ .free) →
        let x := tget s.records r
        let y := tget t.records r
        y.issue = x.issue + 1 ∧ y.message = message ∧ y.priority = max 1 (min 5 priority) ∧ y.repeats = min 15 repeats ∧
          y.source = .order ∧ y.sourceIndex = slot ∧ y.tag = slotTag s.ram slot ∧ y.zoneSet = zones ∧
          y.startStamp = s.deckClock ∧ y.edition = x.edition + 2 ∧
          (∀ z < 16, inMask zones z = true → zoneStation s.ram z = none → (tget y.progress z).outcome = .noStation) ∧
          (∀ z < 16, inMask zones z = true → zoneStation s.ram z ≠ none →
            (tget y.progress z).outcome = .pending ∨ (tget y.progress z).outcome = .dropped) ∧
          (∀ z < 16, inMask zones z = false → (∀ q ∈ (tget s.zoneCalls z).queue, q.record ≠ r) →
            (tget y.progress z).outcome = .none) ∧
          (outcomeMask y .pending ≠ 0 → y.state = .active ∧ inHand s t slot) ∧
          (outcomeMask y .pending = 0 → y.state = .free ∧ y.endStamp = s.deckClock ∧
            completed s t slot (if outcomeMask y .done = zones then .ok else .partly) (callDetail r y)))

/-- CANCEL CALL (R129), in a state whose warning zone sets are those of its boundaries (R121): refused in SETUP with
REFUSED-STATE; a target above 25 is REFUSED-TARGET at the common checks, and so is a record that is not ACTIVE under that
issue number at the call unit's own check. Otherwise every PENDING zone becomes WITHDRAWN and its entry leaves its queue, the
CALL order completes CANCELLED, the record ends and is FREE, and the order completes OK. -/
def Obligations.CancelCallWithdrawsTheCall : Prop :=
  ∀ (s : State) (slot : Nat), s.offers 41 slot → s.warningSetsAgree →
    let r := slotTarget s.ram slot
    let x := tget s.records r
    let matching := x.state = .active ∧ x.issue = byteOf (slotByte s.ram slot 8)
    ∃ t, exec .cancelCall s = .next t ∧ taken s t slot ∧ t.hostSide = s.hostSide ∧ t.serviceSide = s.serviceSide ∧
      t.ramps = s.ramps ∧ t.boundaries = s.boundaries ∧
      (s.partState = .setup → completed s t slot .refusedState [0] ∧ t.records = s.records) ∧
      (s.partState ≠ .setup → 25 < r → completed s t slot .refusedTarget [byteOf r] ∧ t.records = s.records) ∧
      (s.partState ≠ .setup → r ≤ 25 → ¬ matching →
        completed s t slot .refusedTarget []) ∧
      (s.partState ≠ .setup → r ≤ 25 → matching →
        let y := tget t.records r
        completed s t slot .ok [] ∧ completed s t x.sourceIndex .cancelled (callDetail r (closeRecord s.deckClock x)) ∧
          y.state = .free ∧ y.endStamp = s.deckClock ∧ y.issue = x.issue ∧
          ∀ z < 16,
            ((tget x.progress z).outcome = .pending →
              (tget y.progress z).outcome = .withdrawn ∧ ∀ q ∈ (tget t.zoneCalls z).queue, q.record ≠ r) ∧
            ((tget x.progress z).outcome ≠ .pending → tget y.progress z = tget x.progress z))

/-! ## Deck lines -/

/-- The idle wait and the retry (R19, R20, R26): after the idle wait of an exchange the POLL is formed, with the neutral outputs
of its kind in a test and the output record of the station otherwise, and the driver is enabled; a retry of a JAMMED line
begins when it is due, and its idle wait returns the line to RUNNING with the POLL of its next slot, or quiet when no station
has a slot on it (R31). -/
def Obligations.IdleLineSendsItsPoll : Prop :=
  ∀ (s : State) (l : LineId), s.power = .running →
    let x := lineOf s.toDeck l
    (∀ y, x.releasing = false → x.activity = .exchange y → y.phase = .idleWait →
      let out := if y.test = none then outputOf s.toDeck y.addr else neutralOutput y.kind
      ∃ t, exec (.idleWaitSuccess l) s = .next t ∧
        (lineOf t.toDeck l).activity = .exchange { y with phase := .poll (frameOf false y.addr (pollPayload out)) } ∧
        (lineOf t.toDeck l).driver = true ∧ (lineOf t.toDeck l).pattern = y.next ∧ (lineOf t.toDeck l).state = x.state ∧
        (lineOf t.toDeck l).tests = x.tests ∧ (lineOf t.toDeck (flipLine l)).apart = (lineOf s.toDeck (flipLine l)).apart ∧
        t.stations = s.stations) ∧
    (∀ c, x.releasing = false → x.activity = .retry →
      chooseSlot (fastRotation s.toDeck l) (slowRotation s.toDeck l) x.switched x.pattern = some c →
      ∃ t, exec (.idleWaitSuccess l) s = .next t ∧ (lineOf t.toDeck l).state = .running ∧
        (lineOf t.toDeck l).stateStamp = s.deckClock ∧ (lineOf t.toDeck l).driver = true ∧
        (lineOf t.toDeck l).activity = .exchange
          { addr := c.addr, kind := (workingOf s.toDeck c.addr).kind, rate := x.rate, next := c.next, test := none,
            phase := .poll (frameOf false c.addr (pollPayload (outputOf s.toDeck c.addr))) } ∧
        t.stations = s.stations) ∧
    (x.releasing = false → x.activity = .retry →
      chooseSlot (fastRotation s.toDeck l) (slowRotation s.toDeck l) x.switched x.pattern = none →
      ∃ t, exec (.idleWaitSuccess l) s = .next t ∧ (lineOf t.toDeck l).state = .running ∧
        (lineOf t.toDeck l).stateStamp = s.deckClock ∧ (lineOf t.toDeck l).activity = .quiet ∧
        (lineOf t.toDeck l).driver = x.driver ∧ t.stations = s.stations) ∧
    (x.state = .jammed → x.activity = .quiet → reached s.deckClock x.retryAt = true →
      ∃ t, exec (.retry l) s = .next t ∧ (lineOf t.toDeck l).activity = .retry ∧ (lineOf t.toDeck l).state = .jammed ∧
        (lineOf t.toDeck l).retryAt = after s.deckClock 1000 ∧ t.stations = s.stations)

/-- The idle wait that fails (R25, R26, R29, R40): an exchange in RUNNING jams its line, which loses every station on it,
counts the jam, sets the next retry, and leaves its cell FRESH at a level other than 0; a station that is not SILENT moves
to the other line when that is RUNNING and not LOST for it, with LINE SWITCH raised on its cell, and is SILENT otherwise,
where the unit that it serves stops as R67, R94, R95, R113 and R141 say; a jam that brings no silence leaves the ramps, the
boundaries and the zone calls. A test completes with line busy, and a retry only ends. The order of the hand-overs of one
event is log entry 7; the control and the target of a ramp that is free are log entry 13, the moment of the detail of an
ended movement is log entry 14, and the stamp of a ramp held again is log entry 28. -/
def Obligations.IdleWaitFailureJamsTheLine : Prop :=
  ∀ (s : State) (l : LineId), s.power = .running →
    let x := lineOf s.toDeck l
    (∀ y, x.activity = .exchange y → y.phase = .idleWait → y.test = none →
      ∃ t, exec (.idleWaitTimeout l) s = .next t ∧
        (lineOf t.toDeck l).state = .jammed ∧ (lineOf t.toDeck l).stateStamp = s.deckClock ∧
        (lineOf t.toDeck l).activity = .quiet ∧ (lineOf t.toDeck l).switched = [] ∧
        (lineOf t.toDeck l).jamCount = satAdd 65535 x.jamCount ∧ (lineOf t.toDeck l).retryAt = after s.deckClock 1000 ∧
        (∀ n ∈ stationsOn s.toDeck l,
          let a := stationOf s.toDeck n
          let b := stationOf t.toDeck n
          b.on l = { health := .lost, missRun := 3, recoveryRun := 0 } ∧ b.on (flipLine l) = a.on (flipLine l) ∧
            (a.silent = true → b.silent = true ∧ b.current = l) ∧
            (a.silent = false →
              ((lineOf s.toDeck (flipLine l)).state = .running → (a.on (flipLine l)).health ≠ .lost →
                b.current = flipLine l ∧ b.silent = false ∧ (heeded s n → attended s t n)) ∧
              ((lineOf s.toDeck (flipLine l)).state ≠ .running ∨ (a.on (flipLine l)).health = .lost →
                b.current = l ∧ b.silent = true ∧ b.established = false))) ∧
        (∀ n ∈ addresses, n ∉ stationsOn s.toDeck l → (stationOf t.toDeck n).apart = (stationOf s.toDeck n).apart) ∧
        (s.memoryCanonical → s.ordersHeld → ∀ n ∈ addresses, fellSilent s t n → unitSilenced s t n) ∧
        ((∀ n ∈ addresses, ¬ fellSilent s t n) → unitsUntouched s t) ∧
        (lineCellLevel s.ram l ≠ 0 →
          (tget t.cells (lineCell l)).fresh = true ∧ (tget t.cells (lineCell l)).last = s.deckClock)) ∧
    (∀ y slot, s.memoryCanonical → s.ordersHeld → x.activity = .exchange y → y.phase = .idleWait → y.test = some slot →
      ∃ t, exec (.idleWaitTimeout l) s = .next t ∧ completed s t slot .ok (testDetail 9 l [] s.deckClock) ∧
        (lineOf t.toDeck l).apart = x.apart ∧ t.stations = s.stations) ∧
    (x.activity = .retry → x.state = .jammed →
      ∃ t, exec (.idleWaitTimeout l) s = .next t ∧ (lineOf t.toDeck l).activity = .quiet ∧
        (lineOf t.toDeck l).apart = x.apart ∧ t.stations = s.stations)

/-- The phases of an exchange (R13, R20, R21, R23): at the end of the POLL the driver is released and the reply wait begins; a
sync pair begins the reception with its deadline; and the end of the last character of an abandoned POLL releases the
driver, in every phase of a power-on reset, with nothing else changed; with no character being released it changes nothing (log
entry 1). -/
def Obligations.ExchangePhasesFollowTheLine : Prop :=
  (∀ (s : State) (l : LineId) (y : Exchange) (frame : List Byte), s.power = .running →
    (lineOf s.toDeck l).activity = .exchange y → y.phase = .poll frame →
    ∃ t, exec (.pollEnd l) s = .next t ∧ (lineOf t.toDeck l).activity = .exchange { y with phase := .replyWait } ∧
      (lineOf t.toDeck l).driver = false ∧ (lineOf t.toDeck l).state = (lineOf s.toDeck l).state ∧
      t.stations = s.stations) ∧
    (∀ (s : State) (l : LineId) (y : Exchange) (heard : List RxChar), s.power = .running →
      (lineOf s.toDeck l).activity = .exchange y → y.phase = .replyWait → syncHunt heard = true →
      ∃ t, exec (.replyStart l heard) s = .next t ∧
        (lineOf t.toDeck l).activity = .exchange
          { y with phase := .reception ((replyLength y.kind + 6) * 11 * bitMicros y.rate + 500) } ∧
        (lineOf t.toDeck l).apart = (lineOf s.toDeck l).apart ∧ t.stations = s.stations) ∧
    ∀ s : State,
      (s.lineA.releasing = true → exec (.abandonedPollCharacterEnd .a) s =
        .next { s with lineA := { s.lineA with releasing := false, driver := false } }) ∧
      (s.lineB.releasing = true → exec (.abandonedPollCharacterEnd .b) s =
        .next { s with lineB := { s.lineB with releasing := false, driver := false } }) ∧
      (∀ l, (lineOf s.toDeck l).releasing = false → exec (.abandonedPollCharacterEnd l) s = .next s)

/-- An exchange in RUNNING with any outcome but GOOD (R34, R35, R39, R41, R42): the counter of its outcome and the error
block move on, the station misses on that line, and one that becomes LOST on its own line switches to the other line, when
that is RUNNING and not LOST for it, with LINE SWITCH raised on its cell, or becomes SILENT. The silence of a ramp station
stops its ramp in HELD with reason SILENT, and its order completes FAULT; the angle, the permit and the histories go (R67,
R94). That of a panel drops the request, sets the occupancy, and releases the deadman (R95). That of a door leaves it
UNKNOWN with its timers stopped and its waiting orders in hand (R113). That of a call station puts its zone on HOLD, and
ends the unheard WARNING of its ramps (R141, R79). A miss that brings no silence leaves the ramps, the boundaries and the
zone calls. The control and the target of a ramp that is free are log entry 13, the moment of the detail of an ended
movement is log entry 14, that its motion want is clear also on a return to HELD with reason DEADMAN is log entry 24, and
the stamp of a ramp held again is log entry 28. -/
def Obligations.MissedExchangesCountAndSwitch : Prop :=
  ∀ (s : State) (l : LineId) (y : Exchange) (c : Instr) (o : ExchangeOutcome) (payload : List Byte), s.power = .running →
    (lineOf s.toDeck l).activity = .exchange y → y.test = none → y.addr ∈ addresses → endsExchange l y c o payload →
    o ≠ .good →
    let x := stationOf s.toDeck y.addr
    let miss := missStanding (x.on l)
    let other := flipLine l
    let lost := (x.on l).health ≠ .lost ∧ miss.health = .lost ∧ x.current = l ∧ x.silent = false
    ∃ t, exec c s = .next t ∧
      (lineOf t.toDeck l).apart = (countBlock o (countOutcome o (lineOf s.toDeck l))).apart ∧
      (lineOf t.toDeck other).apart = (lineOf s.toDeck other).apart ∧
      (let z := stationOf t.toDeck y.addr
       z.on l = miss ∧ z.on other = x.on other ∧ z.lastReply = x.lastReply ∧ z.published = x.published ∧
        (¬ lost → z.current = x.current ∧ z.silent = x.silent ∧ z.established = x.established ∧ z.inputs = x.inputs) ∧
        (lost → (lineOf s.toDeck other).state = .running → (x.on other).health ≠ .lost →
          z.current = other ∧ z.silent = false ∧ z.established = x.established ∧ z.inputs = x.inputs ∧
            (heeded s y.addr → attended s t y.addr)) ∧
        (lost → (lineOf s.toDeck other).state ≠ .running ∨ (x.on other).health = .lost →
          z.current = l ∧ z.silent = true ∧ z.established = false ∧ z.inputs = Vector.replicate 5 {})) ∧
      (∀ n ∈ addresses, n ≠ y.addr → (stationOf t.toDeck n).apart = (stationOf s.toDeck n).apart) ∧
      (s.memoryCanonical → s.ordersHeld → fellSilent s t y.addr → unitSilenced s t y.addr ∧ silencedAlone s t y.addr) ∧
      (¬ fellSilent s t y.addr → unitsUntouched s t)

/-- The reply carries a new sample (R53). -/
def Sys2Proof.newSample (s : State) (u : Nat) (payload : List Byte) : Prop :=
  (tget s.ramps u).lastSequence ≠ some (replyValues .ramp payload).1

/-- The ramp after steps 1 and 2 of R60 on the sample of the reply. -/
def Sys2Proof.acceptedRamp (s : State) (u : Nat) (payload : List Byte) : Ramp :=
  acceptSample (rampConfig s.ram u) (replyValues .ramp payload).2 s.deckClock
    { tget s.ramps u with lastSequence := some (replyValues .ramp payload).1 }

/-- The verdict of steps 3 to 6 of R60 on the sample of the reply, for a driven ramp. -/
def Sys2Proof.verdictOf (s : State) (u addr : Nat) (payload : List Byte) : Ramp × SampleVerdict :=
  drivenSample (rampConfig s.ram u) (setAfter s addr payload 3) (setAfter s addr payload 0) (acceptedRamp s u payload)

/-- A landed ramp with its drift flags after the sample of the reply (R65, R66). -/
def Sys2Proof.driftedRamp (s : State) (u : Nat) (payload : List Byte) : Ramp :=
  driftFlags (rampConfig s.ram u) (enterSample s.deckClock (acceptedRamp s u payload))

/-- The sample of the reply ends the movement of the ramp before step 9 of R60: the third rail sample in a row of a ramp that
moves (R54), or a verdict other than to go on (R61 to R64). -/
def Sys2Proof.sampleEnds (s : State) (u addr : Nat) (payload : List Byte) : Prop :=
  let r := tget s.ramps u
  newSample s u payload ∧
    ((atRail (replyValues .ramp payload).2 = true ∧ r.railRun = 2 ∧ r.state.moves = true) ∨
      (atRail (replyValues .ramp payload).2 = false ∧ r.state.drives = true ∧ (verdictOf s u addr payload).2 ≠ .goOn))

/-- What the sample of the reply leaves of a ramp whose movement it does not end, before the switches act (R53, R54, R60). A
rail sample is only counted, and the third in a row ends the permit of a landed ramp. An accepted sample runs the filter, the
calibration, the velocity and the history; a driven ramp takes its band, and a landed ramp its drift flags, and loses its
permit past the hard limit or the traffic limit (R65, R66, R90). -/
def Sys2Proof.sampleLeft (s : State) (u addr : Nat) (payload : List Byte) : Ramp :=
  let r := tget s.ramps u
  let heard : Ramp := { r with lastSequence := some (replyValues .ramp payload).1 }
  let landed := driftedRamp s u payload
  if r.lastSequence = some (replyValues .ramp payload).1 then r
  else if atRail (replyValues .ramp payload).2 then
    if 3 ≤ r.railRun then heard
    else { heard with railRun := r.railRun + 1, permit := r.permit && !(r.railRun == 2 && r.state == .landed) }
  else if r.state.drives then enterSample s.deckClock (verdictOf s u addr payload).1
  else if r.state = .landed then
    { landed with permit := r.permit && !(landed.driftLimit && !r.driftLimit) &&
                    withinTraffic (rampConfig s.ram u) (acceptedRamp s u payload),
                  driftWant := r.driftWant || (landed.driftLimit && !r.driftLimit) }
  else enterSample s.deckClock (acceptedRamp s u payload)

/-- R53, R54, R60: what a new sample of a reply does besides. The third rail sample in a row is attended to, and faults a
ramp that moves. A driven ramp whose target the sample reaches is held there, with the sample as the first of its new phase
(log entry 26), and one that fails a check is faulted, by the verdict (R61 to R64). A landed ramp that crosses its hard
limit, or exceeds its traffic limit with its permit standing, or whose warn limit is newly exceeded, is attended to (R65,
R66, R90). -/
def Sys2Proof.sampleTaken (s t : State) (u addr : Nat) (payload : List Byte) : Prop :=
  let r := tget s.ramps u
  let r' := tget t.ramps u
  let a := acceptedRamp s u payload
  let verdict := (verdictOf s u addr payload).2
  let landed := driftedRamp s u payload
  (atRail (replyValues .ramp payload).2 = true → r.railRun = 2 →
    attended s t addr ∧
      (r.state.moves = true → r'.entered s.deckClock .faulted .sensorRail ∧ movementEnded s t u .fault 0)) ∧
    (atRail (replyValues .ramp payload).2 = false →
      (r.state.drives = true →
        (verdict = .atTarget →
          r'.entered s.deckClock .held .target ∧ r'.angle = a.angle ∧ movementEnded s t u .ok 0 ∧
            r'.angleHistory = [⟨a.angle, s.deckClock⟩] ∧ r'.phaseSamples = 1) ∧
          ∀ reason, verdict = .fault reason →
            r'.entered s.deckClock .faulted reason ∧ r'.angle = a.angle ∧ movementEnded s t u .fault 0 ∧
              attended s t addr) ∧
        (r.state = .landed →
          ((landed.driftLimit = true ∧ r.driftLimit = false) ∨
              (withinTraffic (rampConfig s.ram u) a = false ∧ r.permit = true) →
            attended s t addr) ∧
            (landed.driftWarned = true → r.driftWarned = false → heeded s addr → attended s t addr)))

/-- R73: a ramp in UNKNOWN, of which the sample of a reply left `q`, leaves it by the confirmed switches once its angle is
valid. -/
def Sys2Proof.unknownLeft (s t : State) (u addr : Nat) (payload : List Byte) (q : Ramp) : Prop :=
  let r' := tget t.ramps u
  let on := setAfter s addr payload
  (q.angleValid = false → r' = rewriteRamp false (tget s.ramps u) q) ∧
    (q.angleValid = true →
      (on 0 = true ∧ on 1 = true → r'.entered s.deckClock .stowed .none) ∧
        (¬ (on 0 = true ∧ on 1 = true) → on 3 = true → r'.entered s.deckClock .landed .none) ∧
        (¬ (on 0 = true ∧ on 1 = true) → on 3 = false → r'.entered s.deckClock .held .start))

/-- R73, R94: what the report that establishes the inputs of a ramp station does to a ramp of which its sample left `q`. UNKNOWN
is left as at any report, a STOWED ramp that is not found stowed and locked is HELD with reason SWITCHES and attended to, and
no other ramp acts on the values, which change no input: it is as its sample left it (its edition: log entry 8). -/
def Sys2Proof.establishedFollowed (s t : State) (u addr : Nat) (payload : List Byte) (q : Ramp) : Prop :=
  let r' := tget t.ramps u
  let stowed := setAfter s addr payload 0 = true ∧ setAfter s addr payload 1 = true
  (q.state = .unknown → unknownLeft s t u addr payload q) ∧
    (q.state = .stowed → ¬ stowed → r'.entered s.deckClock .held .switches ∧ attended s t addr) ∧
    (q.state ≠ .unknown → (q.state = .stowed → stowed) → r' = rewriteRamp false (tget s.ramps u) q)

/-- R73, R81, R82, R90, R94: what the confirmed switches of a reply do to a ramp of which its sample left `q`. UNKNOWN is left
by the switches once the angle is valid; PINS UNLOCKED begins the lowering, and TIP CONTACT lands it; STOWED and PINS LOCKED
end a raising; TIP CONTACT lost in LANDED, and a stow switch lost in STOWED, leave the ramp HELD and are attended to; and a
reply that changes no switch leaves a ramp that has left UNKNOWN as its sample left it (its edition: log entry 8). -/
def Sys2Proof.switchesFollowed (s t : State) (u addr : Nat) (payload : List Byte) (q : Ramp) : Prop :=
  let r := tget s.ramps u
  let r' := tget t.ramps u
  let conf := rampConfig s.ram u
  let changes := changesOf s addr payload
  let on := setAfter s addr payload
  let landsNow := r'.entered s.deckClock .landed .none ∧ r'.landingAngle = q.angle ∧ r'.permit = withinTraffic conf q
  (q.state = .unknown → unknownLeft s t u addr payload q) ∧
    (q.state = .unlocking → (2, true) ∈ changes →
      (q.movement = .lowerLand → on 3 = true → landsNow ∧ movementEnded s t u .ok 0) ∧
        (¬ (q.movement = .lowerLand ∧ on 3 = true) → (3, true) ∉ changes →
          (reachesTarget conf q = false → r'.entered s.deckClock .lowering .none ∧ movementKept r r') ∧
            (reachesTarget conf q = true → r'.entered s.deckClock .held .target ∧ movementEnded s t u .ok 0))) ∧
    (q.state = .lowering → (3, true) ∈ changes → landsNow ∧ movementEnded s t u .ok 0) ∧
    (q.state = .landed → (3, false) ∈ changes → r'.entered s.deckClock .held .tipLost ∧ attended s t addr) ∧
    (q.state = .raising → (0, true) ∈ changes →
      (on 1 = true → r'.entered s.deckClock .stowed .none ∧ movementEnded s t u .ok 0) ∧
        (on 1 = false → r'.entered s.deckClock .locking .none ∧ movementKept r r')) ∧
    (q.state = .locking → (1, true) ∈ changes → (0, false) ∉ changes →
      r'.entered s.deckClock .stowed .none ∧ movementEnded s t u .ok 0) ∧
    (q.state = .stowed → (0, false) ∈ changes ∨ (1, false) ∈ changes →
      r'.entered s.deckClock .held .switches ∧ attended s t addr) ∧
    (q.state ≠ .unknown → changes = [] → r' = rewriteRamp false r q)

/-- A GOOD reply in RUNNING (R22, R35, R39, R43 to R46, R50, R53 to R66, R73, R81, R82, R90, R94): the error block moves on,
the station's health, its last reply stamp and its confirmed inputs follow, a SILENT station returns on this line with
STATION BACK raised on its cell, and no other station changes. A new sample of a ramp in HELD runs the filter, the
calibration, the velocity and the history; and the reply of an established ramp station does to its ramp what its sample and
then its switches call for, in one reply or in two. A reply of a ramp station that is not established, SILENT or not, hands
on its sample alone while an input is wanting, and the reply that establishes the inputs takes the ramp out of UNKNOWN, or a
STOWED ramp that is not found stowed to HELD with reason SWITCHES, and acts on no switch otherwise. That an accepted sample
which changes no published field makes no rewrite and keeps the edition is the model's choice (log entry 8), and so are the
control and the target of a ramp that is free (log entry 13), the moment of the detail of an ended movement (log entry 14),
no permit at a landing with an angle that is not valid (log entry 15), the sample of AT TARGET as the first of the new phase
(log entry 26), and a lowering whose target is reached already (log entry 31). -/
def Obligations.GoodRepliesConfirmTheInputs : Prop :=
  (∀ (s : State) (l : LineId) (y : Exchange) (c : Instr) (payload : List Byte), s.power = .running →
    (lineOf s.toDeck l).activity = .exchange y → y.test = none → y.addr ∈ addresses →
    endsExchange l y c .good payload →
    let x := stationOf s.toDeck y.addr
    let kind := (workingOf s.toDeck y.addr).kind
    let cells := confirmInputs kind (inputBits kind payload) x.inputs
    let seen : Station :=
      { x with lastReply := s.deckClock, silent := false, current := if x.silent = true then l else x.current,
               inputs := cells, established := x.established || allConfirmed kind cells,
               published := publishInputs kind (changedInputs x.inputs cells) x.published }
    ∃ t, exec c s = .next t ∧
      (lineOf t.toDeck l).apart = (countBlock .good (lineOf s.toDeck l)).apart ∧
      (lineOf t.toDeck (flipLine l)).apart = (lineOf s.toDeck (flipLine l)).apart ∧
      (stationOf t.toDeck y.addr).apart =
        (seen.withStanding l (if x.silent = true then backStanding (x.on l) else goodStanding (x.on l))).apart ∧
      (x.silent = true → heeded s y.addr → attended s t y.addr) ∧
      (∀ n ∈ addresses, n ≠ y.addr → (stationOf t.toDeck n).apart = (stationOf s.toDeck n).apart) ∧
      ∀ u < 4, kind = .ramp → rampsNaming s.ram (fun c => c.station) y.addr = [u] → x.silent = false →
        x.established = true → (tget s.ramps u).state = .held →
        (tget s.ramps u).lastSequence ≠ some (replyValues kind payload).1 → atRail (replyValues kind payload).2 = false →
        tget t.ramps u = rewriteRamp false (tget s.ramps u)
          (enterSample s.deckClock (acceptSample (rampConfig s.ram u) (replyValues kind payload).2 s.deckClock
            { tget s.ramps u with lastSequence := some (replyValues kind payload).1 }))) ∧
  (∀ (s : State) (l : LineId) (y : Exchange) (c : Instr) (payload : List Byte) (u : Nat),
    jobReply s .ramp l y c payload → rampsNaming s.ram (fun x => x.station) y.addr = [u] →
    ∃ t, exec c s = .next t ∧
      (newSample s u payload → sampleTaken s t u y.addr payload) ∧
      (¬ sampleEnds s u y.addr payload → switchesFollowed s t u y.addr payload (sampleLeft s u y.addr payload))) ∧
  ∀ (s : State) (l : LineId) (y : Exchange) (c : Instr) (payload : List Byte) (u : Nat),
    replyTaken s .ramp l y c payload → (stationOf s.toDeck y.addr).established = false → s.memoryCanonical →
    s.ordersHeld → rampsNaming s.ram (fun x => x.station) y.addr = [u] →
    let established := allConfirmed .ramp (inputsAfter s y.addr payload)
    established = true ∨ (tget s.ramps u).state.drives = false →
    ∃ t, exec c s = .next t ∧
      (newSample s u payload → sampleTaken s t u y.addr payload) ∧
      (¬ sampleEnds s u y.addr payload →
        let q := sampleLeft s u y.addr payload
        (established = true → establishedFollowed s t u y.addr payload q) ∧
          (established = false → tget t.ramps u = rewriteRamp false (tget s.ramps u) q))

/-- A test exchange (R29, R49): whatever its outcome, its order completes OK with the outcome's code, the payload of a GOOD reply
and the stamp; no counter of the line and no station changes. -/
def Obligations.TestExchangesReportTheirOutcome : Prop :=
  ∀ (s : State) (l : LineId) (y : Exchange) (slot : Nat) (c : Instr) (o : ExchangeOutcome) (payload : List Byte),
    s.power = .running → s.memoryCanonical → s.ordersHeld → (lineOf s.toDeck l).activity = .exchange y →
    y.test = some slot → endsExchange l y c o payload →
    ∃ t, exec c s = .next t ∧
      completed s t slot .ok (testDetail o.code l (if o = .good then payload else []) s.deckClock) ∧
      (lineOf t.toDeck l).apart = (lineOf s.toDeck l).apart ∧
      (lineOf t.toDeck (flipLine l)).apart = (lineOf s.toDeck (flipLine l)).apart ∧ t.stations = s.stations

/-! ## Ramp timers and the heartbeat -/

/-- R80: the end of WARNING. A failing check of the movement in hand returns the ramp to its rest state; otherwise a lowering
unlocks, lands at once or lowers, and a raising is done, locks or raises, by the confirmed switches. A lowering to an angle
that passes the TARGET check of R74 has not reached it, so log entry 31 does not arise here. -/
def Sys2Proof.warningEnded (s t : State) (u : Nat) : Prop :=
  let r := tget s.ramps u
  let r' := tget t.ramps u
  let c := rampConfig s.ram u
  let sw := fun i => rampSwitch s.env u i s.toDeck
  let kept := r'.source = r.source ∧ r'.slot = r.slot ∧ r'.movement = r.movement ∧ r'.target = r.target
  (∀ code, interlockInHand s.env u s.toDeck = some code →
    r'.entered s.deckClock r.rest r.restReason ∧ movementEnded s t u .refusedInterlock code) ∧
    (interlockInHand s.env u s.toDeck = none →
      (r.movement.lowers = true → sw 2 = false → r'.entered s.deckClock .unlocking .none ∧ kept ∧
        r'.pinsTimer = some (after s.deckClock (c.pinsLimit * 1000))) ∧
      (r.movement.lowers = true → sw 2 = true → r.movement = .lowerLand → sw 3 = true →
        r'.entered s.deckClock .landed .none ∧ movementEnded s t u .ok 0) ∧
      (r.movement.lowers = true → sw 2 = true → ¬ (r.movement = .lowerLand ∧ sw 3 = true) →
        reachesTarget c r = false ∧ r'.entered s.deckClock .lowering .none ∧ kept) ∧
      (r.movement.lowers = false → sw 0 = true → sw 1 = true →
        r'.entered s.deckClock .stowed .none ∧ movementEnded s t u .ok 0) ∧
      (r.movement.lowers = false → sw 0 = true → sw 1 = false → r'.entered s.deckClock .locking .none ∧ kept) ∧
      (r.movement.lowers = false → sw 0 = false → r'.entered s.deckClock .raising .none ∧ kept))

/-- What the end of a prewarn or of a dwell leaves when WARNING may end (R79): it ends for a movement of BRIDGE control and with
DEADMAN confirmed set, and otherwise waits 60 s for the deadman. -/
def Sys2Proof.heardPrewarnEnded (s t : State) (u : Nat) : Prop :=
  let r := tget s.ramps u
  let r' := tget t.ramps u
  (r.control = .bridge ∨ panelButton s.env u 2 s.toDeck = true → warningEnded s t u) ∧
    (r.control = .atPanel → panelButton s.env u 2 s.toDeck = false →
      r'.state = .warning ∧ r'.prewarnEnd = none ∧
        r'.deadmanWait = (if r.deadmanWait = none then some (after s.deckClock 60000) else r.deadmanWait))

/-- The prewarn timer and the reversal dwell (R79, R80, R87): a prewarn that ends with the warning unheard starts the play
limit; with it heard, or without a call station to hear it, WARNING ends. The control and the target of a ramp whose movement
has ended are log entry 13, the moment of its detail is log entry 14, and that the motion want is clear also on a return to
HELD with reason DEADMAN is log entry 24. A lowering to an angle that passes the TARGET check of R74 has its target not yet
reached, so the case of log entry 31 does not arise. -/
def Obligations.PrewarnEndsTheWarning : Prop :=
  ∀ (s : State) (u : Fin 4), s.power = .running → s.memoryCanonical → s.ordersHeld →
    let r := tget s.ramps u
    r.state = .warning → timerDue s.deckClock r.prewarnEnd = true →
    (r.dwell = false → ∃ t, exec (.motionPrewarnExpiry u) s = .next t ∧
      (heardOrWaived s.env u s.toDeck = false →
        tget t.ramps u = { r with prewarnEnd := none, playLimit := some (after s.deckClock 60000) }) ∧
      (heardOrWaived s.env u s.toDeck = true → heardPrewarnEnded s t u)) ∧
    (r.dwell = true → ∃ t, exec (.reversalDwellEnd u) s = .next t ∧
      (heardOrWaived s.env u s.toDeck = false → tget t.ramps u = { r with prewarnEnd := none, dwell := false }) ∧
      (heardOrWaived s.env u s.toDeck = true → heardPrewarnEnded s t u))

/-- R84: DEADMAN let go in a motion state under LOCAL control holds the ramp with its movement, the resume timer starting; and a
deadman hold is taken up again at a report that leaves the button of its direction and DEADMAN set and changed one of them,
by the interlock checks without RAMP STATE, of which TARGET passes only while the target is not reached. -/
def Sys2Proof.deadmanFollowed (s t : State) (u addr : Nat) (payload : List Byte) : Prop :=
  let r := tget s.ramps u
  let r' := tget t.ramps u
  let changes := changesOf s addr payload
  let button := if r.movement.lowers = true then 0 else 1
  let seen : Deck := { s.toDeck with stations := t.stations }
  let takenUp := r.deadmanHeld = true ∧ r.busy = true ∧ setAfter s addr payload button = true ∧
    setAfter s addr payload 2 = true ∧ ((button, true) ∈ changes ∨ (2, true) ∈ changes)
  (r.state.moves = true → r.control = .atPanel → (2, false) ∈ changes →
    r'.entered s.deckClock .held .deadman ∧ r'.resume = some r.state ∧
      r'.resumeTimer = some (after s.deckClock 60000) ∧ movementKept r r' ∧ r'.control = .atPanel ∧
      (heeded s addr → attended s t addr)) ∧
    (takenUp → ∀ code, interlockInHand s.env u seen = some code →
      r'.state = .held ∧ r'.reason = .deadman ∧ r'.busy = false ∧ movementEnded s t u .refusedInterlock code) ∧
    (takenUp → interlockInHand s.env u seen = none → ∀ st, r.resume = some st → st.moves = true →
      reachesTarget (rampConfig s.ram u) r = false ∧ r'.entered s.deckClock st .none ∧ movementKept r r' ∧
        r'.resume = none ∧ r'.resumeTimer = none)

/-- R88, R89, R96: one request button confirmed set on a ramp that is not busy. A direction that may not start is ignored; in
SAFE-HOLD the request is recorded without a timer; a request that pends is left; a BRIDGE answer records it for 30 s; and a
LOCAL answer makes the interlock checks and begins the warning of a movement of source PANEL, or does nothing to the ramp. -/
def Sys2Proof.requestFollowed (s t : State) (u addr : Nat) (payload : List Byte) : Prop :=
  let r := tget s.ramps u
  let r' := tget t.ramps u
  let conf := rampConfig s.ram u
  let lowers := (changesOf s addr payload).contains (0, true)
  let m : Movement := if lowers then .lowerLand else .raise
  let target := if lowers then conf.landingEstimate else conf.stowAngle
  let seen : Deck := { s.toDeck with stations := t.stations }
  let asked : Ramp := { r with request := if lowers then .lower else .raise, requestStamp := s.deckClock }
  (mayStart lowers r.state = false → r' = r) ∧
    (mayStart lowers r.state = true →
      (heeded s addr → s.partState = .safeHold ∨ r.request = .none → attended s t addr) ∧
      (s.partState = .safeHold → r' = rewriteRamp false r { asked with requestTimer := none }) ∧
      (s.partState ≠ .safeHold → r.request ≠ .none → r' = r) ∧
      (s.partState ≠ .safeHold → r.request = .none → conf.answerMode ≠ 1 →
        r' = rewriteRamp false r { asked with requestTimer := some (after s.deckClock 30000) }) ∧
      (s.partState ≠ .safeHold → r.request = .none → conf.answerMode = 1 →
        (∀ code, interlock s.env u true m .atPanel target seen = some code → r' = r) ∧
          (interlock s.env u true m .atPanel target seen = none →
            r'.entered s.deckClock .warning .none ∧ r'.source = .panel ∧ r'.slot = 255 ∧ r'.control = .atPanel ∧
              r'.movement = m ∧ r'.target = target ∧ r'.rest = r.state ∧ r'.heard = false ∧ r'.motionWant = true ∧
              r'.prewarnEnd = some (after s.deckClock (conf.motionPrewarn * 1000)))))

/-- R118: a panel report clears the occupancy held for cover `b`, which is BLOCKED with cause OCCUPIED. -/
def Sys2Proof.occupancyClears (s : State) (b addr : Nat) (payload : List Byte) : Prop :=
  let x := tget s.boundaries b
  x.state = .blocked ∧ x.blockCause = .occupied ∧ x.occupancy = true ∧
    (tget (inputsAfter s addr payload) 4).confirmed = some false

/-- The other timers of a ramp: the play limit ends WARNING in FAULT with detail 11 and the deadman wait in HELD-TIMEOUT (R79);
the pins timer faults the ramp with reason PINS (R81, R83); the resume timer ends the movement of a deadman hold in
HELD-TIMEOUT and keeps the state (R84); the request timer drops a pending request (R88). And the reports of the panel that
start and stop two of these timers: DEADMAN let go and taken up again (R84), and the requests (R88, R89, R96), but for a report
that clears the occupancy of a cover BLOCKED with cause OCCUPIED, whose raise `CoverPrewarnAsksForTheRaise` states. A reply of a
panel that is not established, SILENT or not, changes no ramp and no boundary while an input is wanting, and the reply that
establishes the inputs only hands on the occupancy: it makes no request, no stop and no resume (R95). A deadman
hold whose checks pass has its target not yet reached, so the case of log entry 31 does not arise. The control and the target
of a ramp that is free are log entry 13, the moment of the detail of an ended movement is log entry 14, that the motion want is
clear also in HELD with reason DEADMAN is log entry 24, and the request stamp kept is log entry 25. That a take-up that an
interlock refuses leaves the ramp HELD with reason DEADMAN also when the same report confirms the request button is log entry
16. -/
def Obligations.RampTimersEndTheirMovements : Prop :=
  (∀ (s : State) (u : Fin 4), s.power = .running → s.memoryCanonical → s.ordersHeld →
    let r := tget s.ramps u
    (r.state = .warning → timerDue s.deckClock r.playLimit = true →
      ∃ t, exec (.playLimitExpiry u) s = .next t ∧ (tget t.ramps u).entered s.deckClock r.rest r.restReason ∧
        movementEnded s t u .fault 11) ∧
    (r.state = .warning → timerDue s.deckClock r.deadmanWait = true →
      ∃ t, exec (.deadmanWaitExpiry u) s = .next t ∧ (tget t.ramps u).entered s.deckClock r.rest r.restReason ∧
        movementEnded s t u .heldTimeout 0) ∧
    (timerDue s.deckClock r.pinsTimer = true →
      ∃ t, exec (.pinsTimerExpiry u) s = .next t ∧ (tget t.ramps u).entered s.deckClock .faulted .pins ∧
        movementEnded s t u .fault 0) ∧
    (r.deadmanHeld = true → r.busy = true → timerDue s.deckClock r.resumeTimer = true →
      ∃ t, exec (.resumeTimerExpiry u) s = .next t ∧ tget t.ramps u = rewriteRamp false r (noMovement r) ∧
        movementEnded s t u .heldTimeout 0 ∧ (tget t.ramps u).busy = false) ∧
    (timerDue s.deckClock r.requestTimer = true →
      ∃ t, exec (.requestTimerExpiry u) s = .next t ∧
        tget t.ramps u = rewriteRamp false r { r with request := .none, requestTimer := none })) ∧
  (∀ (s : State) (l : LineId) (y : Exchange) (c : Instr) (payload : List Byte) (u : Nat),
    jobReply s .panel l y c payload → rampsNaming s.ram (fun x => x.panel) y.addr = [u] →
    (3, true) ∉ changesOf s y.addr payload →
    (∀ b, coverOf s.ram u = some b → ¬ occupancyClears s b y.addr payload) →
    ∃ t, exec c s = .next t ∧ deadmanFollowed s t u y.addr payload ∧
      ((tget s.ramps u).busy = false →
        ((0, true) ∈ changesOf s y.addr payload ↔ (1, true) ∉ changesOf s y.addr payload) →
        requestFollowed s t u y.addr payload)) ∧
  ∀ (s : State) (l : LineId) (y : Exchange) (c : Instr) (payload : List Byte) (u : Nat),
    replyTaken s .panel l y c payload → (stationOf s.toDeck y.addr).established = false →
    rampsNaming s.ram (fun x => x.panel) y.addr = [u] →
    let established := allConfirmed .panel (inputsAfter s y.addr payload)
    ∃ t, exec c s = .next t ∧
      (established = false → t.ramps = s.ramps ∧ t.boundaries = s.boundaries) ∧
      (established = true → (tget s.ramps u).state ≠ .warning →
        (coverOf s.ram u = none → t.ramps = s.ramps ∧ t.boundaries = s.boundaries) ∧
          ∀ b, coverOf s.ram u = some b → ¬ occupancyClears s b y.addr payload →
            t.ramps = s.ramps ∧
              tget t.boundaries b =
                rewriteBoundary false (tget s.boundaries b)
                  { tget s.boundaries b with occupancy := setAfter s y.addr payload 4 })

/-- The heartbeat (R181, R182, R96): a host write of 1 to 255 replaces the count in every part state, and any other written value
is refused; at the end of a period in SERVICE the count goes down by one and the next period follows;
at 0 the part enters SAFE-HOLD, the periods stop, every busy ramp stops in HELD with reason BRIDGE LOST, and every pending
request ends. The control and the target of a ramp that is free (log entry 13), the moment of the detail of an ended movement
(log entry 14), the request stamp kept (log entry 25) and the stamp of a HELD ramp held again (log entry 28) are the model's
choices. -/
def Obligations.HeartbeatCountsDownToSafeHold : Prop :=
  (∀ (s : State) (value : Word), s.answers → s.consistent →
    (1 ≤ value.toNat → value.toNat ≤ 255 → exec (.heartbeatReload value) s = .next { s with heartbeat := value.toNat }) ∧
    (value.toNat = 0 ∨ 255 < value.toNat →
      exec (.heartbeatReload value) s =
        .next { s with refusedWrites := satAdd 65535 s.refusedWrites, lastRefused := 0x0C })) ∧
  ∀ (s : State) (due : Stamp), s.power = .running → s.partState = .service → s.heartbeatEnd = some due →
    reached s.deckClock due = true →
    (1 < s.heartbeat →
      exec .heartbeatDecrement s =
        .next { s with heartbeat := s.heartbeat - 1, heartbeatEnd := some (after due 100) }) ∧
    (s.heartbeat = 1 → s.memoryCanonical → s.ordersHeld →
      ∃ t, exec .heartbeatDecrement s = .next t ∧ t.heartbeat = 0 ∧ t.partState = .safeHold ∧ t.stateChanged = true ∧
        t.heartbeatEnd = none ∧ t.starting = s.starting ∧ t.hostSide = s.hostSide ∧ t.arrivals = s.arrivals ∧
        ∀ u < 4, (tget t.ramps u).request = .none ∧
          ((tget s.ramps u).busy = true →
            (tget t.ramps u).entered s.deckClock .held .bridgeLost ∧ movementEnded s t u .stopped 0) ∧
          ((tget s.ramps u).busy = false →
            tget t.ramps u = rewriteRamp false (tget s.ramps u)
              { tget s.ramps u with request := .none, requestTimer := none }))

/-! ## Boundary timers and call timers -/

/-- R105, R107, R108, R120: boundary `b` arrived or failed between `s` and `t`. Its waiting list is empty and its timers are
stopped, each CLOSE BOUNDARY that waited completes OK or FAULT with the count as it stood, and each CLOSE ZONE takes the bit
in its closed or failed mask, and completes when it waits nowhere else. -/
def Sys2Proof.closureSettled (s t : State) (b : Nat) (arrived : Bool) (count : Nat) : Prop :=
  let x := tget s.boundaries b
  let y := tget t.boundaries b
  let st : BoundaryState := if arrived then .closed else .failed
  y.state = st ∧ y.stateStamp = s.deckClock ∧ y.demand = x.demand ∧ y.waiting = [] ∧
    y.obstructions = (if arrived then 0 else count) ∧
    y.prewarnEnd = none ∧ y.closingStart = none ∧ y.holdEnd = none ∧ y.capEnd = none ∧ y.reversalEnd = none ∧
    ∀ k ∈ x.waiting, k < 32 →
      let o := tget s.zoneOrders k
      let o' : ZoneOrder :=
        if arrived then { o with closedMask := o.closedMask ||| boundaryBit b }
        else { o with failedMask := o.failedMask ||| boundaryBit b }
      (o.inHand = false →
        completed s t k (if arrived then .ok else .fault) [byteOf st.code, byteOf x.demand.code, byteOf count]) ∧
        (o.inHand = true → isWaiting t.toDeck k = true → tget t.zoneOrders k = o') ∧
        (o.inHand = true → isWaiting t.toDeck k = false →
          completed s t k (if o'.failedMask = 0 then .ok else .partly) (zoneDetail o'))

/-- A door that a report or a timer brought to CLOSING (R105). -/
def Sys2Proof.closesNow (s t : State) (b : Nat) : Prop :=
  let x := tget s.boundaries b
  let y := tget t.boundaries b
  y.state = .closing ∧ y.stateStamp = s.deckClock ∧ y.closingStart = some s.deckClock ∧ y.drive = .close ∧
    y.demand = x.demand ∧ y.obstructions = x.obstructions ∧ y.waiting = x.waiting ∧ y.prewarnEnd = none

/-- R103, R105, R108: what one confirmed change of an end switch or of the edge of a door does to its boundary. -/
def Sys2Proof.doorSwitchFollowed (s t : State) (b addr : Nat) (changes : List (Nat × Bool)) : Prop :=
  let x := tget s.boundaries b
  let y := tget t.boundaries b
  (changes = [(0, true)] →
    y.openingMark = false ∧ y.waiting = x.waiting ∧ y.demand = x.demand ∧
      y.state = if x.demand = .none ∧ (x.state = .closed ∨ x.state = .failed) then .opened else x.state) ∧
    (changes = [(1, true)] →
      (x.demand = .none →
        y.state = if (x.state = .opened ∧ x.openingMark = false) ∨ x.state = .failed then .closed else x.state) ∧
        (x.demand ≠ .none → x.state ∈ [.prewarn, .closing, .reversing, .passage] →
          closureSettled s t b true x.obstructions) ∧
        (x.demand ≠ .none → x.state ∉ [.prewarn, .closing, .reversing, .passage] → y = x)) ∧
    (changes = [(1, false)] →
      (x.state = .closed → x.demand ≠ .none → closesNow s t b) ∧ (x.state ≠ .closed ∨ x.demand = .none → y = x)) ∧
    (changes = [(2, true)] →
      (x.state ≠ .closing → y = x) ∧
        (x.state = .closing → x.obstructions < 2 →
          y.state = .reversing ∧ y.obstructions = x.obstructions + 1 ∧ y.drive = .opening ∧ y.waiting = x.waiting ∧
            y.reversalEnd = some (after s.deckClock 2000) ∧ y.closingStart = none ∧ (heeded s addr → attended s t addr)) ∧
        (x.state = .closing → 2 ≤ x.obstructions →
          closureSettled s t b false (satAdd 3 x.obstructions) ∧ attended s t addr))

/-- R109: a push on a face of a door, in a report that confirms neither end set nor the edge; CLOSED END may clear with it. -/
def Sys2Proof.pushFollowed (s t : State) (b addr : Nat) : Prop :=
  let x := tget s.boundaries b
  let y := tget t.boundaries b
  let c := boundaryConfig s.ram b
  let hold := some (after s.deckClock (c.passageHold * 1000))
  (x.demand ≠ .none → x.state ∈ [.closing, .reversing, .closed] →
    y.state = .passage ∧ y.stateStamp = s.deckClock ∧ y.drive = .opening ∧ y.demand = x.demand ∧
      y.obstructions = x.obstructions ∧ y.waiting = x.waiting ∧ y.holdEnd = hold ∧
      y.capEnd = some (after s.deckClock (c.passageCap * 1000)) ∧ y.closingStart = none ∧ y.reversalEnd = none ∧
      (heeded s addr → attended s t addr)) ∧
    (x.demand = .none → x.state = .closed → y.state = .opened ∧ y.openingMark = true ∧ y.drive = .opening) ∧
    (x.state = .passage →
      y = rewriteBoundary false x { x with holdEnd := hold } ∧ (heeded s addr → attended s t addr)) ∧
    (x.state ∈ [.unknown, .opened, .prewarn, .blocked, .failed] ∨
      (x.demand = .none ∧ (x.state = .closing ∨ x.state = .reversing)) → y = x)

/-- R102: the established set of its door station takes a door out of UNKNOWN. -/
def Sys2Proof.doorEstablishedFollowed (s t : State) (b : Nat) (closed : Bool) : Prop :=
  let x := tget s.boundaries b
  let y := tget t.boundaries b
  (x.state ≠ .unknown → y = x) ∧
    (x.state = .unknown →
      (x.demand = .none → y.state = (if closed then .closed else .opened) ∧ y.stateStamp = s.deckClock) ∧
        (x.demand ≠ .none → closed = true → closureSettled s t b true x.obstructions) ∧
        (x.demand ≠ .none → closed = false → closesNow s t b))

/-- The timers of a door (R105, R107, R108, R110): the prewarn, the reversal, and the hold and the cap of a passage bring the door
to CLOSING with its closing timer started, also with CLOSED END set (log entry 27); the closing limit brings it to FAILED,
where its drive stops, every waiting CLOSE BOUNDARY completes FAULT, and every waiting CLOSE ZONE takes its bit in the failed mask
and completes PARTIAL when it waits nowhere else (R107, R120). The demand and the obstruction count are kept. And the reports of
its door station: the end switches and the arrival (R103, R105), the edge (R108; with a count of 3 already: log entry 46), a push
on a face (R109), the established set that takes it out of UNKNOWN (R102), and a reply that does not establish the inputs, after
which nothing has changed at any ramp or boundary (R113). -/
def Obligations.DoorTimersCloseOrFail : Prop :=
  (∀ (s : State) (b : Fin 24), s.power = .running → s.memoryCanonical → s.ordersHeld →
    let c := boundaryConfig s.ram b
    let x := tget s.boundaries b
    c.isDoor = true →
    (∀ e, (e = Instr.doorPrewarnExpiry b ∧ x.state = .prewarn ∧ timerDue s.deckClock x.prewarnEnd = true) ∨
        (e = Instr.reversalTimerExpiry b ∧ x.state = .reversing ∧ timerDue s.deckClock x.reversalEnd = true) ∨
        (e = Instr.passageHoldExpiry b ∧ x.state = .passage ∧ timerDue s.deckClock x.holdEnd = true) ∨
        (e = Instr.passageCapExpiry b ∧ x.state = .passage ∧ timerDue s.deckClock x.capEnd = true) →
      ∃ t, exec e s = .next t ∧
        tget t.boundaries b =
          { x with edition := x.edition + 2, state := .closing, blockCause := .none, blockDetail := 0, drive := .close,
                   beacon := x.demand != .none, openingMark := false, prewarnEnd := none,
                   closingStart := some s.deckClock, holdEnd := none, capEnd := none, stateStamp := s.deckClock,
                   reversalEnd := none }) ∧
    (∀ start, x.state = .closing → x.closingStart = some start →
      reached s.deckClock (after start (c.closingLimit * 1000)) = true →
      ∃ t, exec (.closingLimitExpiry b) s = .next t ∧
        tget t.boundaries b =
          { x with edition := x.edition + 2, state := .failed, blockCause := .none, blockDetail := 0, drive := .stop,
                   beacon := x.demand != .none, openingMark := false, waiting := [], prewarnEnd := none,
                   closingStart := none, holdEnd := none, capEnd := none, stateStamp := s.deckClock,
                   reversalEnd := none } ∧
        closureSettled s t b false x.obstructions)) ∧
  (∀ (s : State) (l : LineId) (y : Exchange) (c : Instr) (payload : List Byte) (b : Nat),
    jobReply s .door l y c payload → doorsNaming s.ram y.addr = [b] →
    let changes := changesOf s y.addr payload
    ∃ t, exec c s = .next t ∧ doorSwitchFollowed s t b y.addr changes ∧
      ((3, true) ∈ changes ∨ (4, true) ∈ changes → (0, true) ∉ changes → (1, true) ∉ changes → (2, true) ∉ changes →
        pushFollowed s t b y.addr)) ∧
  (∀ (s : State) (l : LineId) (y : Exchange) (c : Instr) (payload : List Byte) (b : Nat),
    goodReply s .door l y c payload → s.memoryCanonical → s.ordersHeld → doorsNaming s.ram y.addr = [b] →
    (stationOf s.toDeck y.addr).established = false → allConfirmed .door (inputsAfter s y.addr payload) = true →
    ∃ t, exec c s = .next t ∧ doorEstablishedFollowed s t b (setAfter s y.addr payload 1)) ∧
  ∀ (s : State) (l : LineId) (y : Exchange) (c : Instr) (payload : List Byte),
    replyTaken s .door l y c payload → (stationOf s.toDeck y.addr).established = false →
    allConfirmed .door (inputsAfter s y.addr payload) = false →
    ∃ t, exec c s = .next t ∧ t.ramps = s.ramps ∧ t.boundaries = s.boundaries

/-- The prewarn of a cover (R116): with the panel occupied the cover is BLOCKED with cause OCCUPIED, and otherwise it asks for
the closure raise of its ramp (R93), which the ramp answers by its state, its checks and its switches (the control and the
target of a ramp that is STOWED at once: log entry 13). A panel report that only confirms OCCUPIED clear asks for the raise of
a cover BLOCKED with cause OCCUPIED in the same way (R118), and under the causes RAMP STOPPED and RAISE REFUSED it leaves the
cover BLOCKED and the ramp alone. -/
def Obligations.CoverPrewarnAsksForTheRaise : Prop :=
  (∀ (s : State) (b : Fin 24), s.power = .running → (boundaryConfig s.ram b).isCover = true →
    (tget s.boundaries b).state = .prewarn → timerDue s.deckClock (tget s.boundaries b).prewarnEnd = true →
    ∃ t, exec (.coverPrewarnExpiry b) s = .next t ∧
      ((tget s.boundaries b).occupancy = true →
        (tget t.boundaries b).state = .blocked ∧ (tget t.boundaries b).blockCause = .occupied ∧
          (tget t.boundaries b).blockDetail = 0 ∧ (tget t.boundaries b).stateStamp = s.deckClock ∧
          (tget t.boundaries b).prewarnEnd = none ∧ (tget t.boundaries b).waiting = (tget s.boundaries b).waiting ∧
          t.ramps = s.ramps) ∧
      ((tget s.boundaries b).occupancy = false → closureAsked s t b)) ∧
  ∀ (s : State) (l : LineId) (y : Exchange) (c : Instr) (payload : List Byte) (u b : Nat),
    jobReply s .panel l y c payload → rampsNaming s.ram (fun x => x.panel) y.addr = [u] → coverOf s.ram u = some b →
    changesOf s y.addr payload = [(4, false)] → (tget s.ramps u).state ≠ .warning →
    (tget s.boundaries b).state = .blocked →
    ∃ t, exec c s = .next t ∧ (tget t.boundaries b).occupancy = false ∧
      (occupancyClears s b y.addr payload → closureAsked s t b) ∧
      ((tget s.boundaries b).blockCause ≠ .occupied →
        (tget t.boundaries b).state = .blocked ∧
          (tget t.boundaries b).blockCause = (tget s.boundaries b).blockCause ∧
          (tget t.boundaries b).blockDetail = (tget s.boundaries b).blockDetail ∧ t.ramps = s.ramps)

/-- R138: the play of the head `q` of a zone was heard. Its count goes on; with its repeats heard the call is DONE in the zone and
leaves the queue, and otherwise a tone plays again at once, and a message after a pause of 1 s. -/
def Sys2Proof.playHeardFollowed (s t : State) (z : Nat) (q : QueueEntry) (rest : List QueueEntry) : Prop :=
  let zc := tget s.zoneCalls z
  let zc' := tget t.zoneCalls z
  let x := tget s.records q.record
  let heard := satAdd 15 (tget x.progress z).heard
  let p := tget (tget t.records q.record).progress z
  let enough := x.repeats ≠ 0 ∧ x.repeats ≤ heard
  p.heard = heard ∧ (tget t.zones z).playEnd = s.deckClock ∧
    (enough → p.outcome = .done ∧ zc'.queue = rest) ∧
    (¬ enough → p.outcome = (tget x.progress z).outcome ∧ zc'.queue = zc.queue ∧
      ((tget s.catalogue x.message).tone = true → zc'.play = .playing ∧ zc'.token = nextToken zc.token) ∧
      ((tget s.catalogue x.message).tone = false →
        zc'.play = .pause ∧ zc'.pauseEnd = some (after s.deckClock 1000)))

/-- R137, R138, R140: what the values of a reply of a call station, and its AMPLIFIER FAULT, do to the calls of its zone. The
values start a play that waits for them; a count that has moved with the message of the head has its play heard, and the
heard notice reaches a ramp in WARNING (R132); an amplifier fault ends a play in progress as FAULT, and is attended to. -/
def Sys2Proof.callReplyFollowed (s t : State) (z addr : Nat) (payload : List Byte) : Prop :=
  let zc := tget s.zoneCalls z
  let zc' := tget t.zoneCalls z
  let id := (replyValues .call payload).1
  let count := (replyValues .call payload).2
  let fault := (changesOf s addr payload).contains (0, true)
  zc'.lastCount = count ∧ zc'.lastId = id ∧ zc'.known = true ∧
    (∀ q rest, zc.queue = q :: rest → queueOrdered zc.queue → q.record < 32 →
      let heardNow := count ≠ zc.startCount ∧ id = (tget s.records q.record).message
      (zc.play = .waiting → fault = false →
        zc'.queue = zc.queue ∧ zc'.play = .playing ∧ zc'.token = nextToken zc.token ∧ zc'.startCount = count) ∧
      (zc.play = .playing → fault = false → ¬ heardNow → zc'.queue = zc.queue ∧ zc'.play = .playing ∧ zc'.token = zc.token) ∧
      (zc.play = .playing → fault = false → heardNow → heardRamp s.ram z q.record = none →
        playHeardFollowed s t z q rest) ∧
      (zc.play = .playing → fault = false → heardNow → ∀ u, heardRamp s.ram z q.record = some u →
        (tget s.ramps u).state = .warning → (tget s.ramps u).heard = false → (tget s.ramps u).prewarnEnd ≠ none →
        (tget t.ramps u).state = .warning ∧ (tget t.ramps u).heard = true ∧ (tget t.ramps u).playLimit = none) ∧
      (zc.play = .playing → fault = true → ¬ heardNow →
        (tget (tget t.records q.record).progress z).outcome = .fault ∧ zc'.queue = rest ∧
          (tget t.zones z).playEnd = s.deckClock ∧ (heeded s addr → attended s t addr))) ∧
    (zc.play = .idle ∨ zc.play = .pause ∨ zc.play = .hold →
      zc'.queue = zc.queue ∧ zc'.play = zc.play ∧ (fault = true → heeded s addr → attended s t addr))

/-- R141, R137: the reply of a SILENT call station takes its zone out of HOLD. With an empty queue the zone is IDLE; otherwise the
values of the reply start the play of the head, with the next token. -/
def Sys2Proof.callBackFollowed (s t : State) (z addr : Nat) (payload : List Byte) : Prop :=
  let zc := tget s.zoneCalls z
  let zc' := tget t.zoneCalls z
  let id := (replyValues .call payload).1
  let count := (replyValues .call payload).2
  zc'.queue = zc.queue ∧ zc'.lastCount = count ∧ zc'.lastId = id ∧ zc'.known = true ∧
    (zc.queue = [] → zc'.play = .idle ∧ zc'.token = zc.token) ∧
    ∀ q rest, zc.queue = q :: rest →
      let entry := tget s.catalogue (tget s.records q.record).message
      zc'.play = .playing ∧ zc'.token = nextToken zc.token ∧ zc'.startCount = count ∧
        zc'.timeout = some (after s.deckClock (entry.duration * 100 + 2000)) ∧
        outputOf t.toDeck addr = .call
          { message := (tget s.records q.record).message, token := nextToken zc.token, lamp := entry.lamp, stop := false }

/-- The timers of the calls of a zone (R8, R137 to R139, R142): a play timeout ends the play as FAULT, and the next entry becomes
the playing entry; the end of a pause starts the next play of the head with the next token; the end of the linger turns the
lamp off. And the replies of its call station: the values that start a play, plays heard (R138), the amplifier fault (R140),
and the reply that brings a SILENT station back, which takes its zone out of HOLD: to IDLE with an empty queue, and otherwise to
the play of the head, started by the values of the same reply (R141, R137). -/
def Obligations.CallTimersMoveTheQueue : Prop :=
  (∀ (s : State) (z : Fin 16), s.power = .running → s.warningSetsAgree →
    let zc := tget s.zoneCalls z
    (∀ q rest addr, zc.play = .playing → timerDue s.deckClock zc.timeout = true → zc.queue = q :: rest →
      queueOrdered zc.queue → q.record < 32 → zoneStation s.ram z = some addr →
      ∃ t, exec (.playTimeout z) s = .next t ∧
        (tget (tget t.records q.record).progress z).outcome = .fault ∧ (tget t.zoneCalls z).queue = rest ∧
        (tget t.zones z).playEnd = s.deckClock ∧ (tget t.zones z).queueLength = rest.length ∧
        (rest = [] → (tget t.zoneCalls z).play = .idle) ∧
        (rest ≠ [] → zc.known = true →
          (tget t.zoneCalls z).play = .playing ∧ (tget t.zoneCalls z).token = nextToken zc.token) ∧
        (rest ≠ [] → zc.known = false → (tget t.zoneCalls z).play = .waiting) ∧
        (addr ∈ addresses → (workingOf s.toDeck addr).level ≠ 0 → (stationOf s.toDeck addr).muted = false →
          (tget t.cells (addr - 1)).fresh = true)) ∧
    (∀ q rest, zc.play = .pause → timerDue s.deckClock zc.pauseEnd = true → zc.queue = q :: rest →
      let entry := tget s.catalogue (tget s.records q.record).message
      ∃ t, exec (.pauseEnd z) s = .next t ∧
        tget t.zoneCalls z =
          { zc with play := .playing, token := nextToken zc.token, startCount := zc.lastCount, pauseEnd := none,
                    lingerEnd := none, timeout := some (after s.deckClock (entry.duration * 100 + 2000)) } ∧
        (tget t.zones z).playRecord = q.record ∧
        ∀ addr ∈ addresses, zoneStation s.ram z = some addr →
          outputOf t.toDeck addr = .call
            { message := (tget s.records q.record).message, token := nextToken zc.token, lamp := entry.lamp,
              stop := false }) ∧
    (zc.play = .idle → timerDue s.deckClock zc.lingerEnd = true →
      ∃ t, exec (.lampLingerExpiry z) s = .next t ∧ tget t.zoneCalls z = { zc with lingerEnd := none } ∧
        ∀ addr ∈ addresses, zoneStation s.ram z = some addr →
          outputOf t.toDeck addr = .call { callOutputOf s.toDeck addr with lamp := .off })) ∧
  (∀ (s : State) (l : LineId) (y : Exchange) (c : Instr) (payload : List Byte) (z : Nat),
    jobReply s .call l y c payload → s.warningSetsAgree → zoneOfStation s.ram y.addr = some z →
    ∃ t, exec c s = .next t ∧ callReplyFollowed s t z y.addr payload) ∧
  ∀ (s : State) (l : LineId) (y : Exchange) (c : Instr) (payload : List Byte) (z : Nat),
    replyTaken s .call l y c payload → (stationOf s.toDeck y.addr).silent = true →
    (stationOf s.toDeck y.addr).established = false → setAfter s y.addr payload 0 = false → s.warningSetsAgree →
    zoneOfStation s.ram y.addr = some z → (tget s.zoneCalls z).play = .hold →
    ∃ t, exec c s = .next t ∧ t.ramps = s.ramps ∧ t.boundaries = s.boundaries ∧
      callBackFollowed s t z y.addr payload

/-! ## Frames -/

/-- The line events and the timers, but for the end of an abandoned character and the heartbeat. -/
def Sys2Proof.isUnitEvent : Instr → Bool
  | .idleWaitSuccess _ | .idleWaitTimeout _ | .retry _ | .pollEnd _ | .replyStart _ _ | .noReply _ | .receptionFault _ _
  | .truncated _ | .replyFrame _ _ | .motionPrewarnExpiry _ | .playLimitExpiry _ | .deadmanWaitExpiry _
  | .reversalDwellEnd _ | .pinsTimerExpiry _ | .resumeTimerExpiry _ | .requestTimerExpiry _ | .doorPrewarnExpiry _
  | .coverPrewarnExpiry _ | .closingLimitExpiry _ | .reversalTimerExpiry _ | .passageHoldExpiry _ | .passageCapExpiry _
  | .playTimeout _ | .pauseEnd _ | .lampLingerExpiry _ => true
  | .posting _ | .withdrawal _ | .giveBack _ | .take _ _ | .hostWrite _ _ | .heartbeatReload _ | .newsFlagClear _
  | .deckClockLowRead | .windowWrite _ | .interruptEnableWrite _ | .bridgeReset _ | .bridgeResetEnd
  | .registerWriteIgnored _ _ | .powerOnReset | .powerOnClear | .powerOnClearEnd | .startService | .startTakesEffect
  | .enterSetup | .resume | .isolateLine | .restoreLine | .testStation | .unmuteStation | .rampLower | .rampRaise
  | .rampStop | .rampTraffic | .closeBoundary | .closeZone | .releaseBoundary | .forceCover | .call | .cancelCall
  | .refusedKind | .heartbeatDecrement | .abandonedPollCharacterEnd _ => false

/-- The frame of the events and the orders of the units. An event of a line or a timer leaves the host's registers and counts,
the service side, the arrival list, the working copies and all memory, but for the results of the TAKEN slots that it
completes. The intake of an order of a unit writes besides only the result fields and the stamps of the slot at the head of
the arrival list. -/
def Obligations.UnitsLeaveTheHostAlone : Prop :=
  (∀ (s t : State) (c : Instr), s.memoryCanonical → isUnitEvent c = true → exec c s = .next t → unitFrame s t) ∧
    ∀ (s t : State) (c : Instr) (kind : Nat), s.memoryCanonical →
      ((c, kind) ∈ orderCommands ∧ 8 ≤ kind) ∨ c = .refusedKind → exec c s = .next t →
      t.hostSide = s.hostSide ∧ t.serviceSide = s.serviceSide ∧ t.working = s.working ∧ t.catalogue = s.catalogue ∧
        (∀ k < 32, s.arrivals.head? ≠ some k → tget t.hands k = tget s.hands k ∨
          (tget s.hands k = .taken ∧
            (tget t.hands k = .done ∨ (tget t.hands k = .empty ∧ slotQuiet s.ram k = true)))) ∧
        (∀ a, (∀ k < 32, tget s.hands k = .taken → ¬ inResult k a) → (∀ k, s.arrivals.head? = some k → ¬ inIntake k a) →
          memRead t.ram a = memRead s.ram a) ∧
        (s.orderDone = true → t.orderDone = true) ∧ (s.statusEdited = true → t.statusEdited = true)

/-- Everything but the ramps `us` and the boundaries `bs` is as it was in the ramp unit, the boundary unit, the station unit and
the line controllers, which go on with their own work. -/
def Sys2Proof.onlyUnits (s t : State) (us bs : Nat → Prop) : Prop :=
  (∀ v < 4, ¬ us v → tget t.ramps v = tget s.ramps v) ∧ (∀ b < 24, ¬ bs b → tget t.boundaries b = tget s.boundaries b) ∧
    (∀ i < 48, (tget t.stations i).apart = (tget s.stations i).apart) ∧
    ∀ l, (lineOf t.toDeck l).apart = (lineOf s.toDeck l).apart

/-- The frame of the ramp channels, the boundaries and the calls: a ramp's timers and orders change that ramp and its cover, a
boundary's timers that boundary, its ramp and that ramp's cover, a zone's timers no ramp and no boundary; of a station only
the count of muted attentions, and of a line only its next work. -/
def Obligations.TimersStayInTheirUnit : Prop :=
  ∀ (s t : State) (c : Instr), exec c s = .next t →
    (∀ u : Fin 4, c ∈ [.motionPrewarnExpiry u, .playLimitExpiry u, .deadmanWaitExpiry u, .reversalDwellEnd u,
        .pinsTimerExpiry u, .resumeTimerExpiry u, .requestTimerExpiry u] →
      onlyUnits s t (fun v => v = u) (fun b => coverOf s.ram u = some b)) ∧
    (∀ slot kind, (c, kind) ∈ [(.rampLower, 20), (.rampRaise, 21), (.rampStop, 22), (.rampTraffic, 23)] →
      s.takes kind slot →
      onlyUnits s t (fun v => v = slotTarget s.ram slot) (fun b => coverOf s.ram (slotTarget s.ram slot) = some b)) ∧
    (∀ b : Fin 24, c ∈ [.doorPrewarnExpiry b, .closingLimitExpiry b, .reversalTimerExpiry b, .passageHoldExpiry b,
        .passageCapExpiry b] → onlyUnits s t (fun _ => False) (fun d => d = b)) ∧
    (∀ b : Fin 24, c = .coverPrewarnExpiry b →
      onlyUnits s t (fun v => v = (boundaryConfig s.ram b).ramp)
        (fun d => d = b ∨ coverOf s.ram (boundaryConfig s.ram b).ramp = some d)) ∧
    ∀ z : Fin 16, c ∈ [.playTimeout z, .pauseEnd z, .lampLingerExpiry z] →
      onlyUnits s t (fun _ => False) (fun _ => False)

/-! ## Zones, angles and frames on the line -/

/-- A boundary report (R5) and the derivation of a zone (R6): the view takes the state and the demand, and each zone in use
that lists the boundary has the closed and demand flags of its entries, the number of its demand flags as its demand count, and
reads SEALED when all the boundaries that it names are CLOSED, ALERT when one of them has a demand, and NORMAL otherwise; a
zone that does not list the boundary is left alone, and a zone without boundaries is NORMAL. A ramp report (R7): the view takes
the state, and each zone in use that names the ramp has ramp-open set by any state but STOWED, the other zones being left
alone. A call report (R8): the zone takes the playing record, its issue, the queue length and the end of a play. Each of them
moves the edition of a zone on by two when a published field of it changes, and otherwise leaves the zone as it was; and an
edition that an event moves sets STATUS EDITED (R9). -/
def Obligations.BoundaryReportsDeriveTheZones : Prop :=
  (∀ (e : Env) (b : Nat) (st : BoundaryState) (d : Demand) (w : Work), b < 24 →
    let w' := boundaryReport e b st d w
    tget w'.boundaryView b = ⟨st, d⟩ ∧ (∀ c < 24, c ≠ b → tget w'.boundaryView c = tget w.boundaryView c) ∧
      ∀ z < 16,
        let named := zoneBoundaries e.ram z
        let x := tget w'.zones z
        let allClosed := ∀ y ∈ named, (tget w'.boundaryView y).state = .closed
        let demanded := ∃ y ∈ named, (tget w'.boundaryView y).demand ≠ .none
        ((zoneConfig e.ram z).inUse = true → b ∈ named →
          (allClosed → x.fire = .isSealed) ∧ (¬ allClosed → demanded → x.fire = .alert) ∧
            (¬ allClosed → ¬ demanded → x.fire = .normal) ∧
            x.demandCount = (named.filter fun y => decide ((tget w'.boundaryView y).demand ≠ .none)).length ∧
            ∀ k < 4, let entry := (zoneConfig e.ram z).adjacency.getD k 255
              (x.adjacent.getLsbD k = true ↔ entry ≠ 255 ∧ (tget w'.boundaryView entry).state = .closed) ∧
                (x.adjacent.getLsbD (k + 4) = true ↔ entry ≠ 255 ∧ (tget w'.boundaryView entry).demand ≠ .none)) ∧
          ((zoneConfig e.ram z).inUse = false ∨ b ∉ named → x = tget w.zones z) ∧ (tget w.zones z).rewritten x ∧
          x = { tget w.zones z with edition := x.edition, fire := x.fire, demandCount := x.demandCount, adjacent := x.adjacent }) ∧
  (∀ (e : Env) (u : Nat) (st : RampState) (w : Work), u < 4 →
    let w' := rampReport e u st w
    tget w'.rampView u = st ∧ (∀ v < 4, v ≠ u → tget w'.rampView v = tget w.rampView v) ∧ w'.boundaryView = w.boundaryView ∧
      ∀ z < 16,
        let x := tget w'.zones z
        ((zoneConfig e.ram z).inUse = true → (zoneConfig e.ram z).ramp = u → (x.rampOpen = true ↔ st ≠ .stowed)) ∧
          ((zoneConfig e.ram z).inUse = false ∨ (zoneConfig e.ram z).ramp ≠ u → x = tget w.zones z) ∧
          (tget w.zones z).rewritten x ∧ x = { tget w.zones z with edition := x.edition, rampOpen := x.rampOpen }) ∧
  (∀ (z record : Nat) (issue : Byte) (length : Nat) (ended : Option Stamp) (w : Work), z < 16 →
    let w' := callReport z record issue length ended w
    let x := tget w'.zones z
    x.playRecord = record ∧ x.playIssue = issue ∧ x.queueLength = length ∧
      x.playEnd = ended.getD (tget w.zones z).playEnd ∧ (tget w.zones z).rewritten x ∧
      x = { tget w.zones z with edition := x.edition, playRecord := record, playIssue := issue, queueLength := length,
                                playEnd := x.playEnd } ∧
      ∀ k < 16, k ≠ z → tget w'.zones k = tget w.zones k) ∧
  (∀ (w : Work) (s : State) (z : Nat), (tget w.zones z).edition ≠ (tget s.zones z).edition →
    (absorb w s).statusEdited = true) ∧
    ∀ (view : Vector BoundaryView 24) (adjacency : List Nat) (z : Zone), (∀ entry ∈ adjacency, entry = 255) →
      (deriveZone view adjacency z).fire = .normal ∧ (deriveZone view adjacency z).demandCount = 0

/-- The arithmetic of an accepted sample (R55 to R57, R59): the filtered count is the mean of the last four, a half rounded
upward; the angle is the calibration line rounded to the nearest whole number, a tie away from zero, and limited to −300 to
900 with the clamp flag; the velocity is the change over the oldest entry of the history, truncated toward zero and limited
to 999 either way, and 0 without an entry or an interval. The verdict on the sample of a driven ramp (R60 to R64): at the
target of a lowering to an angle, past its travel limit without its switch, in the wrong direction for the third time, or
stalled, and otherwise none; with the band of the distance. The drift flags of a landed ramp (R65, R66). -/
def Obligations.SamplesBecomeAnglesAndVelocities : Prop :=
  (∀ history : List Nat, 4 * filteredCount history ≤ history.sum + 2 ∧ history.sum + 2 < 4 * filteredCount history + 4) ∧
    (∀ (n : Int) (d : Nat), 0 < d →
      (2 * (roundedQuotient n d * d - n)).natAbs ≤ d ∧
        ((2 * (roundedQuotient n d * d - n)).natAbs = d → n.natAbs < (roundedQuotient n d * d).natAbs)) ∧
    (∀ (c : RampConfig) (raw : Nat) (stamp : Stamp) (r : Ramp),
      let x := acceptSample c raw stamp r
      let unclamped :=
        c.angleLow + roundedQuotient (((x.filtered : Int) - c.rawLow) * (c.angleHigh - c.angleLow)) (c.rawHigh - c.rawLow)
      x.angleValid = true ∧ (-300 ≤ unclamped ∧ unclamped ≤ 900 → x.angle = unclamped ∧ x.clamped = false) ∧
        (unclamped < -300 → x.angle = -300 ∧ x.clamped = true) ∧ (900 < unclamped → x.angle = 900 ∧ x.clamped = true) ∧
        x.velocity = velocityOf r.angleHistory x.angle stamp ∧
        (r.rawHistory = [] → x.filtered = raw ∧ x.rawHistory = [raw, raw, raw, raw]) ∧
        (r.rawHistory ≠ [] →
          x.rawHistory = r.rawHistory.drop 1 ++ [raw] ∧ x.filtered = filteredCount x.rawHistory)) ∧
    (∀ (x : Int) (stamp : Stamp), velocityOf [] x stamp = 0) ∧
    (∀ (oldest : AngleEntry) (rest : List AngleEntry) (x : Int) (stamp : Stamp),
      let dt := (stamp - oldest.stamp).toNat
      let change := (x - oldest.angle) * 1000
      let v := velocityOf (oldest :: rest) x stamp
      (dt = 0 → v = 0) ∧
        (0 < dt → change.natAbs < 1000 * dt →
          v.natAbs * dt ≤ change.natAbs ∧ change.natAbs < (v.natAbs + 1) * dt ∧ (0 < v → 0 < change) ∧
            (v < 0 → change < 0)) ∧
        (0 < dt → 1000 * dt ≤ change.natAbs → (0 < change → v = 999) ∧ (change < 0 → v = -999))) ∧
    (∀ (c : RampConfig) (tip stowed : Bool) (r : Ramp), r.angleValid = true → r.state = .lowering ∨ r.state = .raising →
      c.stopBand ≤ c.creepZone → c.creepZone ≤ c.slowZone →
      let p := drivenSample c tip stowed r
      let distance := (r.target - r.angle).natAbs
      let arrived := r.movement = .lowerToAngle ∧ distance ≤ c.stopBand
      let beyond := (r.state = .lowering ∧ r.angle ≤ c.lowerLimit ∧ tip = false) ∨
        (r.state = .raising ∧ c.stowAngle + 20 < r.angle ∧ stowed = false)
      let wrong := (r.state = .lowering ∧ 5 < r.velocity) ∨ (r.state = .raising ∧ r.velocity < -5)
      let run := if wrong then r.wrongRun + 1 else 0
      let needed := if distance ≤ c.creepZone then max 1 (c.minProgress / 4) else c.minProgress
      let stalled := c.stopBand < distance ∧ c.stallWindow ≤ r.phaseSamples ∧
        ∃ x, entryBack r.angleHistory c.stallWindow = some x ∧ (r.angle - x.angle).natAbs < needed
      (arrived → p.2 = .atTarget) ∧
        (¬ arrived →
          p.1.band = (if c.slowZone < distance then .full else if c.creepZone < distance then .slow else .creep) ∧
            (beyond → p.2 = .fault (if r.state = .lowering then .noLanding else .noStowLimit)) ∧
            (¬ beyond → p.1.wrongRun = run ∧ (3 ≤ run → p.2 = .fault .wrongDirection) ∧
              (run < 3 → stalled → p.2 = .fault .stall) ∧ (run < 3 → ¬ stalled → p.2 = .goOn)))) ∧
    ∀ (c : RampConfig) (r : Ramp),
      let n := driftFlags c r
      let drift := (r.angle - r.landingAngle).natAbs
      (c.warnLimit < drift → n.driftWarned = true) ∧ (drift + 10 ≤ c.warnLimit → n.driftWarned = false) ∧
        (drift ≤ c.warnLimit → c.warnLimit < drift + 10 → n.driftWarned = r.driftWarned) ∧
        (n.driftLimit = true ↔ c.hardLimit < drift)

/-- Frames and their check (R14 to R16, R21, R22): the check of the nine ASCII digits 123456789 is 0x29B1; and a REPLY that a
station of a kind sends with a payload of its kind's length is received whole, and classed GOOD, after a sync pair that the
hunt finds. -/
def Obligations.ReplyFramesAreReceivedGood : Prop :=
  crc16 [0x31, 0x32, 0x33, 0x34, 0x35, 0x36, 0x37, 0x38, 0x39] = 0x29B1 ∧
    (∀ b : Byte, sound (charOf b) = true) ∧ syncHunt [charOf 0xC3, charOf 0x3C] = true ∧
    ∀ (addr : Nat) (kind : StationKind) (payload : List Byte), addr < 64 → payload.length = replyLength kind →
      ∃ head length check,
        (frameOf true addr payload).take 2 = [0xC3, 0x3C] ∧
          receive (((frameOf true addr payload).drop 2).map charOf) = .complete head length payload check ∧
          classify kind addr head length payload check = .good
end

