-- ==== Sys2Proof/Laws/Tables.lean ====
section
/-! SUPPORT. What the table operations do: reading an entry after an update, tabulating, and mapping (Machine/Ops.lean). -/

namespace Sys2Proof.Machine

variable {α β γ : Type} {n : Nat}

theorem tget_of_lt [Inhabited α] (t : Vector α n) {i : Nat} (h : i < n) : tget t i = t[i] := by
  simp [tget, h]

theorem tget_of_ge [Inhabited α] (t : Vector α n) {i : Nat} (h : n ≤ i) : tget t i = default := by
  have : ¬ i < n := by omega
  simp [tget, this]

/-- An entry inside the table reads as it was written. -/
@[simp] theorem tget_tput_self [Inhabited α] (t : Vector α n) {i : Nat} (a : α) (h : i < n) :
    tget (tput t i a) i = a := by
  simp [tget, tput, h]

/-- A write to one entry leaves every other entry alone. -/
@[simp] theorem tget_tput_ne [Inhabited α] (t : Vector α n) {i j : Nat} (a : α) (h : i ≠ j) :
    tget (tput t i a) j = tget t j := by
  simp [tget, tput, h]

/-- The entry written, or nothing beyond the end. -/
theorem tget_tput [Inhabited α] (t : Vector α n) (i j : Nat) (a : α) :
    tget (tput t i a) j = if i = j ∧ j < n then a else tget t j := by
  by_cases h : i = j
  · subst h
    by_cases hi : i < n
    · simp [hi]
    · rw [tget_of_ge _ (by omega), tget_of_ge _ (by omega)]; simp [hi]
  · simp [h]

/-- An entry inside the table after a change of that entry. -/
@[simp] theorem tget_tmod_self [Inhabited α] (t : Vector α n) {i : Nat} (f : α → α) (h : i < n) :
    tget (tmod t i f) i = f (tget t i) := by
  simp [tmod, h]

/-- A change of one entry leaves every other entry alone. -/
@[simp] theorem tget_tmod_ne [Inhabited α] (t : Vector α n) {i j : Nat} (f : α → α) (h : i ≠ j) :
    tget (tmod t i f) j = tget t j := by
  simp [tmod, h]

theorem tget_tmod [Inhabited α] (t : Vector α n) (i j : Nat) (f : α → α) :
    tget (tmod t i f) j = if i = j ∧ j < n then f (tget t j) else tget t j := by
  rw [tmod, tget_tput]
  split
  · next h => rw [h.1]
  · rfl

/-- A table written with what it holds is the same table. -/
@[simp] theorem tput_tget [Inhabited α] (t : Vector α n) (i : Nat) : tput t i (tget t i) = t := by
  by_cases h : i < n
  · ext j hj
    simp only [tput, Vector.getElem_setIfInBounds, tget_of_lt t h]
    split
    · next e => simp [e]
    · rfl
  · ext j hj
    simp only [tput, Vector.getElem_setIfInBounds]
    split
    · next e => omega
    · rfl

@[simp] theorem tput_tput (t : Vector α n) (i : Nat) (a b : α) : tput (tput t i a) i b = tput t i b := by
  ext j hj
  simp only [tput, Vector.getElem_setIfInBounds]
  split <;> rfl

@[simp] theorem tmod_id [Inhabited α] (t : Vector α n) (i : Nat) : tmod t i (fun x => x) = t := by
  simp [tmod]

@[simp] theorem tget_tabulate [Inhabited α] (f : Nat → α) {i : Nat} (h : i < n) : tget (tabulate n f) i = f i := by
  rw [tget_of_lt _ h]
  simp [tabulate]

@[simp] theorem tget_map [Inhabited α] [Inhabited β] (f : α → β) (t : Vector α n) {i : Nat} (h : i < n) :
    tget (t.map f) i = f (tget t i) := by
  rw [tget_of_lt _ h, tget_of_lt _ h]
  simp

@[simp] theorem tget_zipWith [Inhabited α] [Inhabited β] [Inhabited γ] (f : α → β → γ) (s : Vector α n)
    (t : Vector β n) {i : Nat} (h : i < n) : tget (Vector.zipWith f s t) i = f (tget s i) (tget t i) := by
  rw [tget_of_lt _ h, tget_of_lt _ h, tget_of_lt _ h]
  simp

@[simp] theorem tget_replicate [Inhabited α] (a : α) {i : Nat} (h : i < n) : tget (Vector.replicate n a) i = a := by
  rw [tget_of_lt _ h]
  simp

/-- Two tables with the same entries are the same table. -/
theorem table_ext [Inhabited α] {s t : Vector α n} (h : ∀ i, i < n → tget s i = tget t i) : s = t := by
  ext i hi
  have := h i hi
  rwa [tget_of_lt _ hi, tget_of_lt _ hi] at this

/-- A count below its top moves on by one; at its top it stays. -/
theorem satAdd_le {top n : Nat} (h : n ≤ top) : satAdd top n ≤ top := by
  unfold satAdd; split <;> omega

theorem le_satAdd (top n : Nat) : n ≤ satAdd top n := by
  unfold satAdd; split <;> omega

end Sys2Proof.Machine
end

