-- ==== Sys2Proof/Laws/State.lean ====
section
/-! SUPPORT. One lemma per field per update of the work of an event and of the machine: what an update writes, and that it
leaves every other field alone. -/

namespace Sys2Proof.Machine

/-! ## modStation -/

@[simp] theorem modStation_lineA (a : Nat) (f : Station → Station) (w : Work) : (modStation a f w).lineA = w.lineA := rfl
@[simp] theorem modStation_lineB (a : Nat) (f : Station → Station) (w : Work) : (modStation a f w).lineB = w.lineB := rfl
@[simp] theorem modStation_classes (a : Nat) (f : Station → Station) (w : Work) : (modStation a f w).classes = w.classes := rfl
@[simp] theorem modStation_stations (a : Nat) (f : Station → Station) (w : Work) : (modStation a f w).stations = tmod w.stations (stationIndex a) f := rfl
@[simp] theorem modStation_working (a : Nat) (f : Station → Station) (w : Work) : (modStation a f w).working = w.working := rfl
@[simp] theorem modStation_outputs (a : Nat) (f : Station → Station) (w : Work) : (modStation a f w).outputs = w.outputs := rfl
@[simp] theorem modStation_ramps (a : Nat) (f : Station → Station) (w : Work) : (modStation a f w).ramps = w.ramps := rfl
@[simp] theorem modStation_boundaries (a : Nat) (f : Station → Station) (w : Work) : (modStation a f w).boundaries = w.boundaries := rfl
@[simp] theorem modStation_zoneOrders (a : Nat) (f : Station → Station) (w : Work) : (modStation a f w).zoneOrders = w.zoneOrders := rfl
@[simp] theorem modStation_fireNormal (a : Nat) (f : Station → Station) (w : Work) : (modStation a f w).fireNormal = w.fireNormal := rfl
@[simp] theorem modStation_fireEmergency (a : Nat) (f : Station → Station) (w : Work) : (modStation a f w).fireEmergency = w.fireEmergency := rfl
@[simp] theorem modStation_catalogue (a : Nat) (f : Station → Station) (w : Work) : (modStation a f w).catalogue = w.catalogue := rfl
@[simp] theorem modStation_records (a : Nat) (f : Station → Station) (w : Work) : (modStation a f w).records = w.records := rfl
@[simp] theorem modStation_zoneCalls (a : Nat) (f : Station → Station) (w : Work) : (modStation a f w).zoneCalls = w.zoneCalls := rfl
@[simp] theorem modStation_zones (a : Nat) (f : Station → Station) (w : Work) : (modStation a f w).zones = w.zones := rfl
@[simp] theorem modStation_boundaryView (a : Nat) (f : Station → Station) (w : Work) : (modStation a f w).boundaryView = w.boundaryView := rfl
@[simp] theorem modStation_rampView (a : Nat) (f : Station → Station) (w : Work) : (modStation a f w).rampView = w.rampView := rfl
@[simp] theorem modStation_cells (a : Nat) (f : Station → Station) (w : Work) : (modStation a f w).cells = w.cells := rfl
@[simp] theorem modStation_races (a : Nat) (f : Station → Station) (w : Work) : (modStation a f w).races = w.races := rfl
@[simp] theorem modStation_outbox (a : Nat) (f : Station → Station) (w : Work) : (modStation a f w).outbox = w.outbox := rfl
@[simp] theorem modStation_playEnded (a : Nat) (f : Station → Station) (w : Work) : (modStation a f w).playEnded = w.playEnded := rfl
@[simp] theorem modStation_notices (a : Nat) (f : Station → Station) (w : Work) : (modStation a f w).notices = w.notices := rfl
@[simp] theorem modStation_workingOf (a : Nat) (f : Station → Station) (w : Work) (n : Nat) :
    workingOf (modStation a f w).toDeck n = workingOf w.toDeck n := rfl
@[simp] theorem modStation_outputOf (a : Nat) (f : Station → Station) (w : Work) (n : Nat) :
    outputOf (modStation a f w).toDeck n = outputOf w.toDeck n := rfl
@[simp] theorem modStation_rampOf (a : Nat) (f : Station → Station) (w : Work) (n : Nat) :
    rampOf (modStation a f w).toDeck n = rampOf w.toDeck n := rfl
@[simp] theorem modStation_lineOf (a : Nat) (f : Station → Station) (w : Work) (l : LineId) :
    lineOf (modStation a f w).toDeck l = lineOf w.toDeck l := by cases l <;> rfl

/-! ## setOutput -/

@[simp] theorem setOutput_lineA (a : Nat) (o : Output) (w : Work) : (setOutput a o w).lineA = w.lineA := rfl
@[simp] theorem setOutput_lineB (a : Nat) (o : Output) (w : Work) : (setOutput a o w).lineB = w.lineB := rfl
@[simp] theorem setOutput_classes (a : Nat) (o : Output) (w : Work) : (setOutput a o w).classes = w.classes := rfl
@[simp] theorem setOutput_stations (a : Nat) (o : Output) (w : Work) : (setOutput a o w).stations = w.stations := rfl
@[simp] theorem setOutput_working (a : Nat) (o : Output) (w : Work) : (setOutput a o w).working = w.working := rfl
@[simp] theorem setOutput_outputs (a : Nat) (o : Output) (w : Work) : (setOutput a o w).outputs = tput w.outputs (stationIndex a) o := rfl
@[simp] theorem setOutput_ramps (a : Nat) (o : Output) (w : Work) : (setOutput a o w).ramps = w.ramps := rfl
@[simp] theorem setOutput_boundaries (a : Nat) (o : Output) (w : Work) : (setOutput a o w).boundaries = w.boundaries := rfl
@[simp] theorem setOutput_zoneOrders (a : Nat) (o : Output) (w : Work) : (setOutput a o w).zoneOrders = w.zoneOrders := rfl
@[simp] theorem setOutput_fireNormal (a : Nat) (o : Output) (w : Work) : (setOutput a o w).fireNormal = w.fireNormal := rfl
@[simp] theorem setOutput_fireEmergency (a : Nat) (o : Output) (w : Work) : (setOutput a o w).fireEmergency = w.fireEmergency := rfl
@[simp] theorem setOutput_catalogue (a : Nat) (o : Output) (w : Work) : (setOutput a o w).catalogue = w.catalogue := rfl
@[simp] theorem setOutput_records (a : Nat) (o : Output) (w : Work) : (setOutput a o w).records = w.records := rfl
@[simp] theorem setOutput_zoneCalls (a : Nat) (o : Output) (w : Work) : (setOutput a o w).zoneCalls = w.zoneCalls := rfl
@[simp] theorem setOutput_zones (a : Nat) (o : Output) (w : Work) : (setOutput a o w).zones = w.zones := rfl
@[simp] theorem setOutput_boundaryView (a : Nat) (o : Output) (w : Work) : (setOutput a o w).boundaryView = w.boundaryView := rfl
@[simp] theorem setOutput_rampView (a : Nat) (o : Output) (w : Work) : (setOutput a o w).rampView = w.rampView := rfl
@[simp] theorem setOutput_cells (a : Nat) (o : Output) (w : Work) : (setOutput a o w).cells = w.cells := rfl
@[simp] theorem setOutput_races (a : Nat) (o : Output) (w : Work) : (setOutput a o w).races = w.races := rfl
@[simp] theorem setOutput_outbox (a : Nat) (o : Output) (w : Work) : (setOutput a o w).outbox = w.outbox := rfl
@[simp] theorem setOutput_playEnded (a : Nat) (o : Output) (w : Work) : (setOutput a o w).playEnded = w.playEnded := rfl
@[simp] theorem setOutput_notices (a : Nat) (o : Output) (w : Work) : (setOutput a o w).notices = w.notices := rfl
@[simp] theorem setOutput_stationOf (a : Nat) (o : Output) (w : Work) (n : Nat) :
    stationOf (setOutput a o w).toDeck n = stationOf w.toDeck n := rfl
@[simp] theorem setOutput_inputSet (a : Nat) (o : Output) (w : Work) (n i : Nat) :
    inputSet (setOutput a o w).toDeck n i = inputSet w.toDeck n i := rfl
@[simp] theorem setOutput_inputClear (a : Nat) (o : Output) (w : Work) (n i : Nat) :
    inputClear (setOutput a o w).toDeck n i = inputClear w.toDeck n i := rfl
@[simp] theorem setOutput_workingOf (a : Nat) (o : Output) (w : Work) (n : Nat) :
    workingOf (setOutput a o w).toDeck n = workingOf w.toDeck n := rfl
@[simp] theorem setOutput_rampOf (a : Nat) (o : Output) (w : Work) (n : Nat) :
    rampOf (setOutput a o w).toDeck n = rampOf w.toDeck n := rfl
@[simp] theorem setOutput_lineOf (a : Nat) (o : Output) (w : Work) (l : LineId) :
    lineOf (setOutput a o w).toDeck l = lineOf w.toDeck l := by cases l <;> rfl

/-! ## setClass -/

@[simp] theorem setClass_lineA (a : Nat) (c : Rotation) (w : Work) : (setClass a c w).lineA = w.lineA := rfl
@[simp] theorem setClass_lineB (a : Nat) (c : Rotation) (w : Work) : (setClass a c w).lineB = w.lineB := rfl
@[simp] theorem setClass_classes (a : Nat) (c : Rotation) (w : Work) : (setClass a c w).classes = tput w.classes (stationIndex a) c := rfl
@[simp] theorem setClass_stations (a : Nat) (c : Rotation) (w : Work) : (setClass a c w).stations = w.stations := rfl
@[simp] theorem setClass_working (a : Nat) (c : Rotation) (w : Work) : (setClass a c w).working = w.working := rfl
@[simp] theorem setClass_outputs (a : Nat) (c : Rotation) (w : Work) : (setClass a c w).outputs = w.outputs := rfl
@[simp] theorem setClass_ramps (a : Nat) (c : Rotation) (w : Work) : (setClass a c w).ramps = w.ramps := rfl
@[simp] theorem setClass_boundaries (a : Nat) (c : Rotation) (w : Work) : (setClass a c w).boundaries = w.boundaries := rfl
@[simp] theorem setClass_zoneOrders (a : Nat) (c : Rotation) (w : Work) : (setClass a c w).zoneOrders = w.zoneOrders := rfl
@[simp] theorem setClass_fireNormal (a : Nat) (c : Rotation) (w : Work) : (setClass a c w).fireNormal = w.fireNormal := rfl
@[simp] theorem setClass_fireEmergency (a : Nat) (c : Rotation) (w : Work) : (setClass a c w).fireEmergency = w.fireEmergency := rfl
@[simp] theorem setClass_catalogue (a : Nat) (c : Rotation) (w : Work) : (setClass a c w).catalogue = w.catalogue := rfl
@[simp] theorem setClass_records (a : Nat) (c : Rotation) (w : Work) : (setClass a c w).records = w.records := rfl
@[simp] theorem setClass_zoneCalls (a : Nat) (c : Rotation) (w : Work) : (setClass a c w).zoneCalls = w.zoneCalls := rfl
@[simp] theorem setClass_zones (a : Nat) (c : Rotation) (w : Work) : (setClass a c w).zones = w.zones := rfl
@[simp] theorem setClass_boundaryView (a : Nat) (c : Rotation) (w : Work) : (setClass a c w).boundaryView = w.boundaryView := rfl
@[simp] theorem setClass_rampView (a : Nat) (c : Rotation) (w : Work) : (setClass a c w).rampView = w.rampView := rfl
@[simp] theorem setClass_cells (a : Nat) (c : Rotation) (w : Work) : (setClass a c w).cells = w.cells := rfl
@[simp] theorem setClass_races (a : Nat) (c : Rotation) (w : Work) : (setClass a c w).races = w.races := rfl
@[simp] theorem setClass_outbox (a : Nat) (c : Rotation) (w : Work) : (setClass a c w).outbox = w.outbox := rfl
@[simp] theorem setClass_playEnded (a : Nat) (c : Rotation) (w : Work) : (setClass a c w).playEnded = w.playEnded := rfl
@[simp] theorem setClass_notices (a : Nat) (c : Rotation) (w : Work) : (setClass a c w).notices = w.notices := rfl
@[simp] theorem setClass_stationOf (a : Nat) (c : Rotation) (w : Work) (n : Nat) :
    stationOf (setClass a c w).toDeck n = stationOf w.toDeck n := rfl
@[simp] theorem setClass_inputSet (a : Nat) (c : Rotation) (w : Work) (n i : Nat) :
    inputSet (setClass a c w).toDeck n i = inputSet w.toDeck n i := rfl
@[simp] theorem setClass_inputClear (a : Nat) (c : Rotation) (w : Work) (n i : Nat) :
    inputClear (setClass a c w).toDeck n i = inputClear w.toDeck n i := rfl
@[simp] theorem setClass_workingOf (a : Nat) (c : Rotation) (w : Work) (n : Nat) :
    workingOf (setClass a c w).toDeck n = workingOf w.toDeck n := rfl
@[simp] theorem setClass_outputOf (a : Nat) (c : Rotation) (w : Work) (n : Nat) :
    outputOf (setClass a c w).toDeck n = outputOf w.toDeck n := rfl
@[simp] theorem setClass_rampOf (a : Nat) (c : Rotation) (w : Work) (n : Nat) :
    rampOf (setClass a c w).toDeck n = rampOf w.toDeck n := rfl
@[simp] theorem setClass_lineOf (a : Nat) (c : Rotation) (w : Work) (l : LineId) :
    lineOf (setClass a c w).toDeck l = lineOf w.toDeck l := by cases l <;> rfl

/-! ## modRamp -/

@[simp] theorem modRamp_lineA (u : Nat) (f : Ramp → Ramp) (w : Work) : (modRamp u f w).lineA = w.lineA := rfl
@[simp] theorem modRamp_lineB (u : Nat) (f : Ramp → Ramp) (w : Work) : (modRamp u f w).lineB = w.lineB := rfl
@[simp] theorem modRamp_classes (u : Nat) (f : Ramp → Ramp) (w : Work) : (modRamp u f w).classes = w.classes := rfl
@[simp] theorem modRamp_stations (u : Nat) (f : Ramp → Ramp) (w : Work) : (modRamp u f w).stations = w.stations := rfl
@[simp] theorem modRamp_working (u : Nat) (f : Ramp → Ramp) (w : Work) : (modRamp u f w).working = w.working := rfl
@[simp] theorem modRamp_outputs (u : Nat) (f : Ramp → Ramp) (w : Work) : (modRamp u f w).outputs = w.outputs := rfl
@[simp] theorem modRamp_ramps (u : Nat) (f : Ramp → Ramp) (w : Work) : (modRamp u f w).ramps = tmod w.ramps u f := rfl
@[simp] theorem modRamp_boundaries (u : Nat) (f : Ramp → Ramp) (w : Work) : (modRamp u f w).boundaries = w.boundaries := rfl
@[simp] theorem modRamp_zoneOrders (u : Nat) (f : Ramp → Ramp) (w : Work) : (modRamp u f w).zoneOrders = w.zoneOrders := rfl
@[simp] theorem modRamp_fireNormal (u : Nat) (f : Ramp → Ramp) (w : Work) : (modRamp u f w).fireNormal = w.fireNormal := rfl
@[simp] theorem modRamp_fireEmergency (u : Nat) (f : Ramp → Ramp) (w : Work) : (modRamp u f w).fireEmergency = w.fireEmergency := rfl
@[simp] theorem modRamp_catalogue (u : Nat) (f : Ramp → Ramp) (w : Work) : (modRamp u f w).catalogue = w.catalogue := rfl
@[simp] theorem modRamp_records (u : Nat) (f : Ramp → Ramp) (w : Work) : (modRamp u f w).records = w.records := rfl
@[simp] theorem modRamp_zoneCalls (u : Nat) (f : Ramp → Ramp) (w : Work) : (modRamp u f w).zoneCalls = w.zoneCalls := rfl
@[simp] theorem modRamp_zones (u : Nat) (f : Ramp → Ramp) (w : Work) : (modRamp u f w).zones = w.zones := rfl
@[simp] theorem modRamp_boundaryView (u : Nat) (f : Ramp → Ramp) (w : Work) : (modRamp u f w).boundaryView = w.boundaryView := rfl
@[simp] theorem modRamp_rampView (u : Nat) (f : Ramp → Ramp) (w : Work) : (modRamp u f w).rampView = w.rampView := rfl
@[simp] theorem modRamp_cells (u : Nat) (f : Ramp → Ramp) (w : Work) : (modRamp u f w).cells = w.cells := rfl
@[simp] theorem modRamp_races (u : Nat) (f : Ramp → Ramp) (w : Work) : (modRamp u f w).races = w.races := rfl
@[simp] theorem modRamp_outbox (u : Nat) (f : Ramp → Ramp) (w : Work) : (modRamp u f w).outbox = w.outbox := rfl
@[simp] theorem modRamp_playEnded (u : Nat) (f : Ramp → Ramp) (w : Work) : (modRamp u f w).playEnded = w.playEnded := rfl
@[simp] theorem modRamp_notices (u : Nat) (f : Ramp → Ramp) (w : Work) : (modRamp u f w).notices = w.notices := rfl
@[simp] theorem modRamp_stationOf (u : Nat) (f : Ramp → Ramp) (w : Work) (n : Nat) :
    stationOf (modRamp u f w).toDeck n = stationOf w.toDeck n := rfl
@[simp] theorem modRamp_inputSet (u : Nat) (f : Ramp → Ramp) (w : Work) (n i : Nat) :
    inputSet (modRamp u f w).toDeck n i = inputSet w.toDeck n i := rfl
@[simp] theorem modRamp_inputClear (u : Nat) (f : Ramp → Ramp) (w : Work) (n i : Nat) :
    inputClear (modRamp u f w).toDeck n i = inputClear w.toDeck n i := rfl
@[simp] theorem modRamp_workingOf (u : Nat) (f : Ramp → Ramp) (w : Work) (n : Nat) :
    workingOf (modRamp u f w).toDeck n = workingOf w.toDeck n := rfl
@[simp] theorem modRamp_outputOf (u : Nat) (f : Ramp → Ramp) (w : Work) (n : Nat) :
    outputOf (modRamp u f w).toDeck n = outputOf w.toDeck n := rfl
@[simp] theorem modRamp_lineOf (u : Nat) (f : Ramp → Ramp) (w : Work) (l : LineId) :
    lineOf (modRamp u f w).toDeck l = lineOf w.toDeck l := by cases l <;> rfl

/-! ## modBoundary -/

@[simp] theorem modBoundary_lineA (b : Nat) (f : Boundary → Boundary) (w : Work) : (modBoundary b f w).lineA = w.lineA := rfl
@[simp] theorem modBoundary_lineB (b : Nat) (f : Boundary → Boundary) (w : Work) : (modBoundary b f w).lineB = w.lineB := rfl
@[simp] theorem modBoundary_classes (b : Nat) (f : Boundary → Boundary) (w : Work) : (modBoundary b f w).classes = w.classes := rfl
@[simp] theorem modBoundary_stations (b : Nat) (f : Boundary → Boundary) (w : Work) : (modBoundary b f w).stations = w.stations := rfl
@[simp] theorem modBoundary_working (b : Nat) (f : Boundary → Boundary) (w : Work) : (modBoundary b f w).working = w.working := rfl
@[simp] theorem modBoundary_outputs (b : Nat) (f : Boundary → Boundary) (w : Work) : (modBoundary b f w).outputs = w.outputs := rfl
@[simp] theorem modBoundary_ramps (b : Nat) (f : Boundary → Boundary) (w : Work) : (modBoundary b f w).ramps = w.ramps := rfl
@[simp] theorem modBoundary_boundaries (b : Nat) (f : Boundary → Boundary) (w : Work) : (modBoundary b f w).boundaries = tmod w.boundaries b f := rfl
@[simp] theorem modBoundary_zoneOrders (b : Nat) (f : Boundary → Boundary) (w : Work) : (modBoundary b f w).zoneOrders = w.zoneOrders := rfl
@[simp] theorem modBoundary_fireNormal (b : Nat) (f : Boundary → Boundary) (w : Work) : (modBoundary b f w).fireNormal = w.fireNormal := rfl
@[simp] theorem modBoundary_fireEmergency (b : Nat) (f : Boundary → Boundary) (w : Work) : (modBoundary b f w).fireEmergency = w.fireEmergency := rfl
@[simp] theorem modBoundary_catalogue (b : Nat) (f : Boundary → Boundary) (w : Work) : (modBoundary b f w).catalogue = w.catalogue := rfl
@[simp] theorem modBoundary_records (b : Nat) (f : Boundary → Boundary) (w : Work) : (modBoundary b f w).records = w.records := rfl
@[simp] theorem modBoundary_zoneCalls (b : Nat) (f : Boundary → Boundary) (w : Work) : (modBoundary b f w).zoneCalls = w.zoneCalls := rfl
@[simp] theorem modBoundary_zones (b : Nat) (f : Boundary → Boundary) (w : Work) : (modBoundary b f w).zones = w.zones := rfl
@[simp] theorem modBoundary_boundaryView (b : Nat) (f : Boundary → Boundary) (w : Work) : (modBoundary b f w).boundaryView = w.boundaryView := rfl
@[simp] theorem modBoundary_rampView (b : Nat) (f : Boundary → Boundary) (w : Work) : (modBoundary b f w).rampView = w.rampView := rfl
@[simp] theorem modBoundary_cells (b : Nat) (f : Boundary → Boundary) (w : Work) : (modBoundary b f w).cells = w.cells := rfl
@[simp] theorem modBoundary_races (b : Nat) (f : Boundary → Boundary) (w : Work) : (modBoundary b f w).races = w.races := rfl
@[simp] theorem modBoundary_outbox (b : Nat) (f : Boundary → Boundary) (w : Work) : (modBoundary b f w).outbox = w.outbox := rfl
@[simp] theorem modBoundary_playEnded (b : Nat) (f : Boundary → Boundary) (w : Work) : (modBoundary b f w).playEnded = w.playEnded := rfl
@[simp] theorem modBoundary_notices (b : Nat) (f : Boundary → Boundary) (w : Work) : (modBoundary b f w).notices = w.notices := rfl
@[simp] theorem modBoundary_stationOf (b : Nat) (f : Boundary → Boundary) (w : Work) (n : Nat) :
    stationOf (modBoundary b f w).toDeck n = stationOf w.toDeck n := rfl
@[simp] theorem modBoundary_inputSet (b : Nat) (f : Boundary → Boundary) (w : Work) (n i : Nat) :
    inputSet (modBoundary b f w).toDeck n i = inputSet w.toDeck n i := rfl
@[simp] theorem modBoundary_inputClear (b : Nat) (f : Boundary → Boundary) (w : Work) (n i : Nat) :
    inputClear (modBoundary b f w).toDeck n i = inputClear w.toDeck n i := rfl
@[simp] theorem modBoundary_workingOf (b : Nat) (f : Boundary → Boundary) (w : Work) (n : Nat) :
    workingOf (modBoundary b f w).toDeck n = workingOf w.toDeck n := rfl
@[simp] theorem modBoundary_outputOf (b : Nat) (f : Boundary → Boundary) (w : Work) (n : Nat) :
    outputOf (modBoundary b f w).toDeck n = outputOf w.toDeck n := rfl
@[simp] theorem modBoundary_rampOf (b : Nat) (f : Boundary → Boundary) (w : Work) (n : Nat) :
    rampOf (modBoundary b f w).toDeck n = rampOf w.toDeck n := rfl
@[simp] theorem modBoundary_lineOf (b : Nat) (f : Boundary → Boundary) (w : Work) (l : LineId) :
    lineOf (modBoundary b f w).toDeck l = lineOf w.toDeck l := by cases l <;> rfl

/-! ## modZoneOrder -/

@[simp] theorem modZoneOrder_lineA (k : Nat) (f : ZoneOrder → ZoneOrder) (w : Work) : (modZoneOrder k f w).lineA = w.lineA := rfl
@[simp] theorem modZoneOrder_lineB (k : Nat) (f : ZoneOrder → ZoneOrder) (w : Work) : (modZoneOrder k f w).lineB = w.lineB := rfl
@[simp] theorem modZoneOrder_classes (k : Nat) (f : ZoneOrder → ZoneOrder) (w : Work) : (modZoneOrder k f w).classes = w.classes := rfl
@[simp] theorem modZoneOrder_stations (k : Nat) (f : ZoneOrder → ZoneOrder) (w : Work) : (modZoneOrder k f w).stations = w.stations := rfl
@[simp] theorem modZoneOrder_working (k : Nat) (f : ZoneOrder → ZoneOrder) (w : Work) : (modZoneOrder k f w).working = w.working := rfl
@[simp] theorem modZoneOrder_outputs (k : Nat) (f : ZoneOrder → ZoneOrder) (w : Work) : (modZoneOrder k f w).outputs = w.outputs := rfl
@[simp] theorem modZoneOrder_ramps (k : Nat) (f : ZoneOrder → ZoneOrder) (w : Work) : (modZoneOrder k f w).ramps = w.ramps := rfl
@[simp] theorem modZoneOrder_boundaries (k : Nat) (f : ZoneOrder → ZoneOrder) (w : Work) : (modZoneOrder k f w).boundaries = w.boundaries := rfl
@[simp] theorem modZoneOrder_zoneOrders (k : Nat) (f : ZoneOrder → ZoneOrder) (w : Work) : (modZoneOrder k f w).zoneOrders = tmod w.zoneOrders k f := rfl
@[simp] theorem modZoneOrder_fireNormal (k : Nat) (f : ZoneOrder → ZoneOrder) (w : Work) : (modZoneOrder k f w).fireNormal = w.fireNormal := rfl
@[simp] theorem modZoneOrder_fireEmergency (k : Nat) (f : ZoneOrder → ZoneOrder) (w : Work) : (modZoneOrder k f w).fireEmergency = w.fireEmergency := rfl
@[simp] theorem modZoneOrder_catalogue (k : Nat) (f : ZoneOrder → ZoneOrder) (w : Work) : (modZoneOrder k f w).catalogue = w.catalogue := rfl
@[simp] theorem modZoneOrder_records (k : Nat) (f : ZoneOrder → ZoneOrder) (w : Work) : (modZoneOrder k f w).records = w.records := rfl
@[simp] theorem modZoneOrder_zoneCalls (k : Nat) (f : ZoneOrder → ZoneOrder) (w : Work) : (modZoneOrder k f w).zoneCalls = w.zoneCalls := rfl
@[simp] theorem modZoneOrder_zones (k : Nat) (f : ZoneOrder → ZoneOrder) (w : Work) : (modZoneOrder k f w).zones = w.zones := rfl
@[simp] theorem modZoneOrder_boundaryView (k : Nat) (f : ZoneOrder → ZoneOrder) (w : Work) : (modZoneOrder k f w).boundaryView = w.boundaryView := rfl
@[simp] theorem modZoneOrder_rampView (k : Nat) (f : ZoneOrder → ZoneOrder) (w : Work) : (modZoneOrder k f w).rampView = w.rampView := rfl
@[simp] theorem modZoneOrder_cells (k : Nat) (f : ZoneOrder → ZoneOrder) (w : Work) : (modZoneOrder k f w).cells = w.cells := rfl
@[simp] theorem modZoneOrder_races (k : Nat) (f : ZoneOrder → ZoneOrder) (w : Work) : (modZoneOrder k f w).races = w.races := rfl
@[simp] theorem modZoneOrder_outbox (k : Nat) (f : ZoneOrder → ZoneOrder) (w : Work) : (modZoneOrder k f w).outbox = w.outbox := rfl
@[simp] theorem modZoneOrder_playEnded (k : Nat) (f : ZoneOrder → ZoneOrder) (w : Work) : (modZoneOrder k f w).playEnded = w.playEnded := rfl
@[simp] theorem modZoneOrder_notices (k : Nat) (f : ZoneOrder → ZoneOrder) (w : Work) : (modZoneOrder k f w).notices = w.notices := rfl
@[simp] theorem modZoneOrder_stationOf (k : Nat) (f : ZoneOrder → ZoneOrder) (w : Work) (n : Nat) :
    stationOf (modZoneOrder k f w).toDeck n = stationOf w.toDeck n := rfl
@[simp] theorem modZoneOrder_inputSet (k : Nat) (f : ZoneOrder → ZoneOrder) (w : Work) (n i : Nat) :
    inputSet (modZoneOrder k f w).toDeck n i = inputSet w.toDeck n i := rfl
@[simp] theorem modZoneOrder_inputClear (k : Nat) (f : ZoneOrder → ZoneOrder) (w : Work) (n i : Nat) :
    inputClear (modZoneOrder k f w).toDeck n i = inputClear w.toDeck n i := rfl
@[simp] theorem modZoneOrder_workingOf (k : Nat) (f : ZoneOrder → ZoneOrder) (w : Work) (n : Nat) :
    workingOf (modZoneOrder k f w).toDeck n = workingOf w.toDeck n := rfl
@[simp] theorem modZoneOrder_outputOf (k : Nat) (f : ZoneOrder → ZoneOrder) (w : Work) (n : Nat) :
    outputOf (modZoneOrder k f w).toDeck n = outputOf w.toDeck n := rfl
@[simp] theorem modZoneOrder_rampOf (k : Nat) (f : ZoneOrder → ZoneOrder) (w : Work) (n : Nat) :
    rampOf (modZoneOrder k f w).toDeck n = rampOf w.toDeck n := rfl
@[simp] theorem modZoneOrder_lineOf (k : Nat) (f : ZoneOrder → ZoneOrder) (w : Work) (l : LineId) :
    lineOf (modZoneOrder k f w).toDeck l = lineOf w.toDeck l := by cases l <;> rfl

/-! ## modZoneCalls -/

@[simp] theorem modZoneCalls_lineA (z : Nat) (f : ZoneCalls → ZoneCalls) (w : Work) : (modZoneCalls z f w).lineA = w.lineA := rfl
@[simp] theorem modZoneCalls_lineB (z : Nat) (f : ZoneCalls → ZoneCalls) (w : Work) : (modZoneCalls z f w).lineB = w.lineB := rfl
@[simp] theorem modZoneCalls_classes (z : Nat) (f : ZoneCalls → ZoneCalls) (w : Work) : (modZoneCalls z f w).classes = w.classes := rfl
@[simp] theorem modZoneCalls_stations (z : Nat) (f : ZoneCalls → ZoneCalls) (w : Work) : (modZoneCalls z f w).stations = w.stations := rfl
@[simp] theorem modZoneCalls_working (z : Nat) (f : ZoneCalls → ZoneCalls) (w : Work) : (modZoneCalls z f w).working = w.working := rfl
@[simp] theorem modZoneCalls_outputs (z : Nat) (f : ZoneCalls → ZoneCalls) (w : Work) : (modZoneCalls z f w).outputs = w.outputs := rfl
@[simp] theorem modZoneCalls_ramps (z : Nat) (f : ZoneCalls → ZoneCalls) (w : Work) : (modZoneCalls z f w).ramps = w.ramps := rfl
@[simp] theorem modZoneCalls_boundaries (z : Nat) (f : ZoneCalls → ZoneCalls) (w : Work) : (modZoneCalls z f w).boundaries = w.boundaries := rfl
@[simp] theorem modZoneCalls_zoneOrders (z : Nat) (f : ZoneCalls → ZoneCalls) (w : Work) : (modZoneCalls z f w).zoneOrders = w.zoneOrders := rfl
@[simp] theorem modZoneCalls_fireNormal (z : Nat) (f : ZoneCalls → ZoneCalls) (w : Work) : (modZoneCalls z f w).fireNormal = w.fireNormal := rfl
@[simp] theorem modZoneCalls_fireEmergency (z : Nat) (f : ZoneCalls → ZoneCalls) (w : Work) : (modZoneCalls z f w).fireEmergency = w.fireEmergency := rfl
@[simp] theorem modZoneCalls_catalogue (z : Nat) (f : ZoneCalls → ZoneCalls) (w : Work) : (modZoneCalls z f w).catalogue = w.catalogue := rfl
@[simp] theorem modZoneCalls_records (z : Nat) (f : ZoneCalls → ZoneCalls) (w : Work) : (modZoneCalls z f w).records = w.records := rfl
@[simp] theorem modZoneCalls_zoneCalls (z : Nat) (f : ZoneCalls → ZoneCalls) (w : Work) : (modZoneCalls z f w).zoneCalls = tmod w.zoneCalls z f := rfl
@[simp] theorem modZoneCalls_zones (z : Nat) (f : ZoneCalls → ZoneCalls) (w : Work) : (modZoneCalls z f w).zones = w.zones := rfl
@[simp] theorem modZoneCalls_boundaryView (z : Nat) (f : ZoneCalls → ZoneCalls) (w : Work) : (modZoneCalls z f w).boundaryView = w.boundaryView := rfl
@[simp] theorem modZoneCalls_rampView (z : Nat) (f : ZoneCalls → ZoneCalls) (w : Work) : (modZoneCalls z f w).rampView = w.rampView := rfl
@[simp] theorem modZoneCalls_cells (z : Nat) (f : ZoneCalls → ZoneCalls) (w : Work) : (modZoneCalls z f w).cells = w.cells := rfl
@[simp] theorem modZoneCalls_races (z : Nat) (f : ZoneCalls → ZoneCalls) (w : Work) : (modZoneCalls z f w).races = w.races := rfl
@[simp] theorem modZoneCalls_outbox (z : Nat) (f : ZoneCalls → ZoneCalls) (w : Work) : (modZoneCalls z f w).outbox = w.outbox := rfl
@[simp] theorem modZoneCalls_playEnded (z : Nat) (f : ZoneCalls → ZoneCalls) (w : Work) : (modZoneCalls z f w).playEnded = w.playEnded := rfl
@[simp] theorem modZoneCalls_notices (z : Nat) (f : ZoneCalls → ZoneCalls) (w : Work) : (modZoneCalls z f w).notices = w.notices := rfl
@[simp] theorem modZoneCalls_stationOf (z : Nat) (f : ZoneCalls → ZoneCalls) (w : Work) (n : Nat) :
    stationOf (modZoneCalls z f w).toDeck n = stationOf w.toDeck n := rfl
@[simp] theorem modZoneCalls_inputSet (z : Nat) (f : ZoneCalls → ZoneCalls) (w : Work) (n i : Nat) :
    inputSet (modZoneCalls z f w).toDeck n i = inputSet w.toDeck n i := rfl
@[simp] theorem modZoneCalls_inputClear (z : Nat) (f : ZoneCalls → ZoneCalls) (w : Work) (n i : Nat) :
    inputClear (modZoneCalls z f w).toDeck n i = inputClear w.toDeck n i := rfl
@[simp] theorem modZoneCalls_workingOf (z : Nat) (f : ZoneCalls → ZoneCalls) (w : Work) (n : Nat) :
    workingOf (modZoneCalls z f w).toDeck n = workingOf w.toDeck n := rfl
@[simp] theorem modZoneCalls_outputOf (z : Nat) (f : ZoneCalls → ZoneCalls) (w : Work) (n : Nat) :
    outputOf (modZoneCalls z f w).toDeck n = outputOf w.toDeck n := rfl
@[simp] theorem modZoneCalls_rampOf (z : Nat) (f : ZoneCalls → ZoneCalls) (w : Work) (n : Nat) :
    rampOf (modZoneCalls z f w).toDeck n = rampOf w.toDeck n := rfl
@[simp] theorem modZoneCalls_lineOf (z : Nat) (f : ZoneCalls → ZoneCalls) (w : Work) (l : LineId) :
    lineOf (modZoneCalls z f w).toDeck l = lineOf w.toDeck l := by cases l <;> rfl

/-! ## modRecord -/

@[simp] theorem modRecord_lineA (r : Nat) (f : CallRecord → CallRecord) (w : Work) : (modRecord r f w).lineA = w.lineA := rfl
@[simp] theorem modRecord_lineB (r : Nat) (f : CallRecord → CallRecord) (w : Work) : (modRecord r f w).lineB = w.lineB := rfl
@[simp] theorem modRecord_classes (r : Nat) (f : CallRecord → CallRecord) (w : Work) : (modRecord r f w).classes = w.classes := rfl
@[simp] theorem modRecord_stations (r : Nat) (f : CallRecord → CallRecord) (w : Work) : (modRecord r f w).stations = w.stations := rfl
@[simp] theorem modRecord_working (r : Nat) (f : CallRecord → CallRecord) (w : Work) : (modRecord r f w).working = w.working := rfl
@[simp] theorem modRecord_outputs (r : Nat) (f : CallRecord → CallRecord) (w : Work) : (modRecord r f w).outputs = w.outputs := rfl
@[simp] theorem modRecord_ramps (r : Nat) (f : CallRecord → CallRecord) (w : Work) : (modRecord r f w).ramps = w.ramps := rfl
@[simp] theorem modRecord_boundaries (r : Nat) (f : CallRecord → CallRecord) (w : Work) : (modRecord r f w).boundaries = w.boundaries := rfl
@[simp] theorem modRecord_zoneOrders (r : Nat) (f : CallRecord → CallRecord) (w : Work) : (modRecord r f w).zoneOrders = w.zoneOrders := rfl
@[simp] theorem modRecord_fireNormal (r : Nat) (f : CallRecord → CallRecord) (w : Work) : (modRecord r f w).fireNormal = w.fireNormal := rfl
@[simp] theorem modRecord_fireEmergency (r : Nat) (f : CallRecord → CallRecord) (w : Work) : (modRecord r f w).fireEmergency = w.fireEmergency := rfl
@[simp] theorem modRecord_catalogue (r : Nat) (f : CallRecord → CallRecord) (w : Work) : (modRecord r f w).catalogue = w.catalogue := rfl
@[simp] theorem modRecord_records (r : Nat) (f : CallRecord → CallRecord) (w : Work) : (modRecord r f w).records = tmod w.records r f := rfl
@[simp] theorem modRecord_zoneCalls (r : Nat) (f : CallRecord → CallRecord) (w : Work) : (modRecord r f w).zoneCalls = w.zoneCalls := rfl
@[simp] theorem modRecord_zones (r : Nat) (f : CallRecord → CallRecord) (w : Work) : (modRecord r f w).zones = w.zones := rfl
@[simp] theorem modRecord_boundaryView (r : Nat) (f : CallRecord → CallRecord) (w : Work) : (modRecord r f w).boundaryView = w.boundaryView := rfl
@[simp] theorem modRecord_rampView (r : Nat) (f : CallRecord → CallRecord) (w : Work) : (modRecord r f w).rampView = w.rampView := rfl
@[simp] theorem modRecord_cells (r : Nat) (f : CallRecord → CallRecord) (w : Work) : (modRecord r f w).cells = w.cells := rfl
@[simp] theorem modRecord_races (r : Nat) (f : CallRecord → CallRecord) (w : Work) : (modRecord r f w).races = w.races := rfl
@[simp] theorem modRecord_outbox (r : Nat) (f : CallRecord → CallRecord) (w : Work) : (modRecord r f w).outbox = w.outbox := rfl
@[simp] theorem modRecord_playEnded (r : Nat) (f : CallRecord → CallRecord) (w : Work) : (modRecord r f w).playEnded = w.playEnded := rfl
@[simp] theorem modRecord_notices (r : Nat) (f : CallRecord → CallRecord) (w : Work) : (modRecord r f w).notices = w.notices := rfl
@[simp] theorem modRecord_stationOf (r : Nat) (f : CallRecord → CallRecord) (w : Work) (n : Nat) :
    stationOf (modRecord r f w).toDeck n = stationOf w.toDeck n := rfl
@[simp] theorem modRecord_inputSet (r : Nat) (f : CallRecord → CallRecord) (w : Work) (n i : Nat) :
    inputSet (modRecord r f w).toDeck n i = inputSet w.toDeck n i := rfl
@[simp] theorem modRecord_inputClear (r : Nat) (f : CallRecord → CallRecord) (w : Work) (n i : Nat) :
    inputClear (modRecord r f w).toDeck n i = inputClear w.toDeck n i := rfl
@[simp] theorem modRecord_workingOf (r : Nat) (f : CallRecord → CallRecord) (w : Work) (n : Nat) :
    workingOf (modRecord r f w).toDeck n = workingOf w.toDeck n := rfl
@[simp] theorem modRecord_outputOf (r : Nat) (f : CallRecord → CallRecord) (w : Work) (n : Nat) :
    outputOf (modRecord r f w).toDeck n = outputOf w.toDeck n := rfl
@[simp] theorem modRecord_rampOf (r : Nat) (f : CallRecord → CallRecord) (w : Work) (n : Nat) :
    rampOf (modRecord r f w).toDeck n = rampOf w.toDeck n := rfl
@[simp] theorem modRecord_lineOf (r : Nat) (f : CallRecord → CallRecord) (w : Work) (l : LineId) :
    lineOf (modRecord r f w).toDeck l = lineOf w.toDeck l := by cases l <;> rfl

/-! ## modZone -/

@[simp] theorem modZone_lineA (z : Nat) (f : Zone → Zone) (w : Work) : (modZone z f w).lineA = w.lineA := rfl
@[simp] theorem modZone_lineB (z : Nat) (f : Zone → Zone) (w : Work) : (modZone z f w).lineB = w.lineB := rfl
@[simp] theorem modZone_classes (z : Nat) (f : Zone → Zone) (w : Work) : (modZone z f w).classes = w.classes := rfl
@[simp] theorem modZone_stations (z : Nat) (f : Zone → Zone) (w : Work) : (modZone z f w).stations = w.stations := rfl
@[simp] theorem modZone_working (z : Nat) (f : Zone → Zone) (w : Work) : (modZone z f w).working = w.working := rfl
@[simp] theorem modZone_outputs (z : Nat) (f : Zone → Zone) (w : Work) : (modZone z f w).outputs = w.outputs := rfl
@[simp] theorem modZone_ramps (z : Nat) (f : Zone → Zone) (w : Work) : (modZone z f w).ramps = w.ramps := rfl
@[simp] theorem modZone_boundaries (z : Nat) (f : Zone → Zone) (w : Work) : (modZone z f w).boundaries = w.boundaries := rfl
@[simp] theorem modZone_zoneOrders (z : Nat) (f : Zone → Zone) (w : Work) : (modZone z f w).zoneOrders = w.zoneOrders := rfl
@[simp] theorem modZone_fireNormal (z : Nat) (f : Zone → Zone) (w : Work) : (modZone z f w).fireNormal = w.fireNormal := rfl
@[simp] theorem modZone_fireEmergency (z : Nat) (f : Zone → Zone) (w : Work) : (modZone z f w).fireEmergency = w.fireEmergency := rfl
@[simp] theorem modZone_catalogue (z : Nat) (f : Zone → Zone) (w : Work) : (modZone z f w).catalogue = w.catalogue := rfl
@[simp] theorem modZone_records (z : Nat) (f : Zone → Zone) (w : Work) : (modZone z f w).records = w.records := rfl
@[simp] theorem modZone_zoneCalls (z : Nat) (f : Zone → Zone) (w : Work) : (modZone z f w).zoneCalls = w.zoneCalls := rfl
@[simp] theorem modZone_zones (z : Nat) (f : Zone → Zone) (w : Work) : (modZone z f w).zones = tmod w.zones z (rewriteZone f) := rfl
@[simp] theorem modZone_boundaryView (z : Nat) (f : Zone → Zone) (w : Work) : (modZone z f w).boundaryView = w.boundaryView := rfl
@[simp] theorem modZone_rampView (z : Nat) (f : Zone → Zone) (w : Work) : (modZone z f w).rampView = w.rampView := rfl
@[simp] theorem modZone_cells (z : Nat) (f : Zone → Zone) (w : Work) : (modZone z f w).cells = w.cells := rfl
@[simp] theorem modZone_races (z : Nat) (f : Zone → Zone) (w : Work) : (modZone z f w).races = w.races := rfl
@[simp] theorem modZone_outbox (z : Nat) (f : Zone → Zone) (w : Work) : (modZone z f w).outbox = w.outbox := rfl
@[simp] theorem modZone_playEnded (z : Nat) (f : Zone → Zone) (w : Work) : (modZone z f w).playEnded = w.playEnded := rfl
@[simp] theorem modZone_notices (z : Nat) (f : Zone → Zone) (w : Work) : (modZone z f w).notices = w.notices := rfl
@[simp] theorem modZone_stationOf (z : Nat) (f : Zone → Zone) (w : Work) (n : Nat) :
    stationOf (modZone z f w).toDeck n = stationOf w.toDeck n := rfl
@[simp] theorem modZone_inputSet (z : Nat) (f : Zone → Zone) (w : Work) (n i : Nat) :
    inputSet (modZone z f w).toDeck n i = inputSet w.toDeck n i := rfl
@[simp] theorem modZone_inputClear (z : Nat) (f : Zone → Zone) (w : Work) (n i : Nat) :
    inputClear (modZone z f w).toDeck n i = inputClear w.toDeck n i := rfl
@[simp] theorem modZone_workingOf (z : Nat) (f : Zone → Zone) (w : Work) (n : Nat) :
    workingOf (modZone z f w).toDeck n = workingOf w.toDeck n := rfl
@[simp] theorem modZone_outputOf (z : Nat) (f : Zone → Zone) (w : Work) (n : Nat) :
    outputOf (modZone z f w).toDeck n = outputOf w.toDeck n := rfl
@[simp] theorem modZone_rampOf (z : Nat) (f : Zone → Zone) (w : Work) (n : Nat) :
    rampOf (modZone z f w).toDeck n = rampOf w.toDeck n := rfl
@[simp] theorem modZone_lineOf (z : Nat) (f : Zone → Zone) (w : Work) (l : LineId) :
    lineOf (modZone z f w).toDeck l = lineOf w.toDeck l := by cases l <;> rfl

/-! ## placeAttention -/

@[simp] theorem placeAttention_lineA (e : Env) (c : Nat) (k : AttentionKind) (v : Nat) (d : Word) (w : Work) : (placeAttention e c k v d w).lineA = w.lineA := rfl
@[simp] theorem placeAttention_lineB (e : Env) (c : Nat) (k : AttentionKind) (v : Nat) (d : Word) (w : Work) : (placeAttention e c k v d w).lineB = w.lineB := rfl
@[simp] theorem placeAttention_classes (e : Env) (c : Nat) (k : AttentionKind) (v : Nat) (d : Word) (w : Work) : (placeAttention e c k v d w).classes = w.classes := rfl
@[simp] theorem placeAttention_stations (e : Env) (c : Nat) (k : AttentionKind) (v : Nat) (d : Word) (w : Work) : (placeAttention e c k v d w).stations = w.stations := rfl
@[simp] theorem placeAttention_working (e : Env) (c : Nat) (k : AttentionKind) (v : Nat) (d : Word) (w : Work) : (placeAttention e c k v d w).working = w.working := rfl
@[simp] theorem placeAttention_outputs (e : Env) (c : Nat) (k : AttentionKind) (v : Nat) (d : Word) (w : Work) : (placeAttention e c k v d w).outputs = w.outputs := rfl
@[simp] theorem placeAttention_ramps (e : Env) (c : Nat) (k : AttentionKind) (v : Nat) (d : Word) (w : Work) : (placeAttention e c k v d w).ramps = w.ramps := rfl
@[simp] theorem placeAttention_boundaries (e : Env) (c : Nat) (k : AttentionKind) (v : Nat) (d : Word) (w : Work) : (placeAttention e c k v d w).boundaries = w.boundaries := rfl
@[simp] theorem placeAttention_zoneOrders (e : Env) (c : Nat) (k : AttentionKind) (v : Nat) (d : Word) (w : Work) : (placeAttention e c k v d w).zoneOrders = w.zoneOrders := rfl
@[simp] theorem placeAttention_fireNormal (e : Env) (c : Nat) (k : AttentionKind) (v : Nat) (d : Word) (w : Work) : (placeAttention e c k v d w).fireNormal = w.fireNormal := rfl
@[simp] theorem placeAttention_fireEmergency (e : Env) (c : Nat) (k : AttentionKind) (v : Nat) (d : Word) (w : Work) : (placeAttention e c k v d w).fireEmergency = w.fireEmergency := rfl
@[simp] theorem placeAttention_catalogue (e : Env) (c : Nat) (k : AttentionKind) (v : Nat) (d : Word) (w : Work) : (placeAttention e c k v d w).catalogue = w.catalogue := rfl
@[simp] theorem placeAttention_records (e : Env) (c : Nat) (k : AttentionKind) (v : Nat) (d : Word) (w : Work) : (placeAttention e c k v d w).records = w.records := rfl
@[simp] theorem placeAttention_zoneCalls (e : Env) (c : Nat) (k : AttentionKind) (v : Nat) (d : Word) (w : Work) : (placeAttention e c k v d w).zoneCalls = w.zoneCalls := rfl
@[simp] theorem placeAttention_zones (e : Env) (c : Nat) (k : AttentionKind) (v : Nat) (d : Word) (w : Work) : (placeAttention e c k v d w).zones = w.zones := rfl
@[simp] theorem placeAttention_boundaryView (e : Env) (c : Nat) (k : AttentionKind) (v : Nat) (d : Word) (w : Work) : (placeAttention e c k v d w).boundaryView = w.boundaryView := rfl
@[simp] theorem placeAttention_rampView (e : Env) (c : Nat) (k : AttentionKind) (v : Nat) (d : Word) (w : Work) : (placeAttention e c k v d w).rampView = w.rampView := rfl
@[simp] theorem placeAttention_cells (e : Env) (c : Nat) (k : AttentionKind) (v : Nat) (d : Word) (w : Work) : (placeAttention e c k v d w).cells = tmod w.cells c (placeOn k v d e.now) := rfl
@[simp] theorem placeAttention_races (e : Env) (c : Nat) (k : AttentionKind) (v : Nat) (d : Word) (w : Work) : (placeAttention e c k v d w).races = w.races := rfl
@[simp] theorem placeAttention_outbox (e : Env) (c : Nat) (k : AttentionKind) (v : Nat) (d : Word) (w : Work) : (placeAttention e c k v d w).outbox = w.outbox := rfl
@[simp] theorem placeAttention_playEnded (e : Env) (c : Nat) (k : AttentionKind) (v : Nat) (d : Word) (w : Work) : (placeAttention e c k v d w).playEnded = w.playEnded := rfl
@[simp] theorem placeAttention_notices (e : Env) (c : Nat) (k : AttentionKind) (v : Nat) (d : Word) (w : Work) : (placeAttention e c k v d w).notices = w.notices := rfl
@[simp] theorem placeAttention_stationOf (e : Env) (c : Nat) (k : AttentionKind) (v : Nat) (d : Word) (w : Work) (n : Nat) :
    stationOf (placeAttention e c k v d w).toDeck n = stationOf w.toDeck n := rfl
@[simp] theorem placeAttention_inputSet (e : Env) (c : Nat) (k : AttentionKind) (v : Nat) (d : Word) (w : Work) (n i : Nat) :
    inputSet (placeAttention e c k v d w).toDeck n i = inputSet w.toDeck n i := rfl
@[simp] theorem placeAttention_inputClear (e : Env) (c : Nat) (k : AttentionKind) (v : Nat) (d : Word) (w : Work) (n i : Nat) :
    inputClear (placeAttention e c k v d w).toDeck n i = inputClear w.toDeck n i := rfl
@[simp] theorem placeAttention_workingOf (e : Env) (c : Nat) (k : AttentionKind) (v : Nat) (d : Word) (w : Work) (n : Nat) :
    workingOf (placeAttention e c k v d w).toDeck n = workingOf w.toDeck n := rfl
@[simp] theorem placeAttention_outputOf (e : Env) (c : Nat) (k : AttentionKind) (v : Nat) (d : Word) (w : Work) (n : Nat) :
    outputOf (placeAttention e c k v d w).toDeck n = outputOf w.toDeck n := rfl
@[simp] theorem placeAttention_rampOf (e : Env) (c : Nat) (k : AttentionKind) (v : Nat) (d : Word) (w : Work) (n : Nat) :
    rampOf (placeAttention e c k v d w).toDeck n = rampOf w.toDeck n := rfl
@[simp] theorem placeAttention_lineOf (e : Env) (c : Nat) (k : AttentionKind) (v : Nat) (d : Word) (w : Work) (l : LineId) :
    lineOf (placeAttention e c k v d w).toDeck l = lineOf w.toDeck l := by cases l <;> rfl

/-! ## complete -/

@[simp] theorem complete_lineA (k : Nat) (r : Result) (d : List Byte) (w : Work) : (complete k r d w).lineA = w.lineA := rfl
@[simp] theorem complete_lineB (k : Nat) (r : Result) (d : List Byte) (w : Work) : (complete k r d w).lineB = w.lineB := rfl
@[simp] theorem complete_classes (k : Nat) (r : Result) (d : List Byte) (w : Work) : (complete k r d w).classes = w.classes := rfl
@[simp] theorem complete_stations (k : Nat) (r : Result) (d : List Byte) (w : Work) : (complete k r d w).stations = w.stations := rfl
@[simp] theorem complete_working (k : Nat) (r : Result) (d : List Byte) (w : Work) : (complete k r d w).working = w.working := rfl
@[simp] theorem complete_outputs (k : Nat) (r : Result) (d : List Byte) (w : Work) : (complete k r d w).outputs = w.outputs := rfl
@[simp] theorem complete_ramps (k : Nat) (r : Result) (d : List Byte) (w : Work) : (complete k r d w).ramps = w.ramps := rfl
@[simp] theorem complete_boundaries (k : Nat) (r : Result) (d : List Byte) (w : Work) : (complete k r d w).boundaries = w.boundaries := rfl
@[simp] theorem complete_zoneOrders (k : Nat) (r : Result) (d : List Byte) (w : Work) : (complete k r d w).zoneOrders = w.zoneOrders := rfl
@[simp] theorem complete_fireNormal (k : Nat) (r : Result) (d : List Byte) (w : Work) : (complete k r d w).fireNormal = w.fireNormal := rfl
@[simp] theorem complete_fireEmergency (k : Nat) (r : Result) (d : List Byte) (w : Work) : (complete k r d w).fireEmergency = w.fireEmergency := rfl
@[simp] theorem complete_catalogue (k : Nat) (r : Result) (d : List Byte) (w : Work) : (complete k r d w).catalogue = w.catalogue := rfl
@[simp] theorem complete_records (k : Nat) (r : Result) (d : List Byte) (w : Work) : (complete k r d w).records = w.records := rfl
@[simp] theorem complete_zoneCalls (k : Nat) (r : Result) (d : List Byte) (w : Work) : (complete k r d w).zoneCalls = w.zoneCalls := rfl
@[simp] theorem complete_zones (k : Nat) (r : Result) (d : List Byte) (w : Work) : (complete k r d w).zones = w.zones := rfl
@[simp] theorem complete_boundaryView (k : Nat) (r : Result) (d : List Byte) (w : Work) : (complete k r d w).boundaryView = w.boundaryView := rfl
@[simp] theorem complete_rampView (k : Nat) (r : Result) (d : List Byte) (w : Work) : (complete k r d w).rampView = w.rampView := rfl
@[simp] theorem complete_cells (k : Nat) (r : Result) (d : List Byte) (w : Work) : (complete k r d w).cells = w.cells := rfl
@[simp] theorem complete_races (k : Nat) (r : Result) (d : List Byte) (w : Work) : (complete k r d w).races = w.races := rfl
@[simp] theorem complete_outbox (k : Nat) (r : Result) (d : List Byte) (w : Work) : (complete k r d w).outbox = w.outbox ++ [⟨k, r, d⟩] := rfl
@[simp] theorem complete_playEnded (k : Nat) (r : Result) (d : List Byte) (w : Work) : (complete k r d w).playEnded = w.playEnded := rfl
@[simp] theorem complete_notices (k : Nat) (r : Result) (d : List Byte) (w : Work) : (complete k r d w).notices = w.notices := rfl
@[simp] theorem complete_toDeck (k : Nat) (r : Result) (d : List Byte) (w : Work) : (complete k r d w).toDeck = w.toDeck := rfl

/-! ## modLine -/

@[simp] theorem modLine_classes (l : LineId) (f : Line → Line) (w : Work) : (modLine l f w).classes = w.classes := by cases l <;> rfl
@[simp] theorem modLine_stations (l : LineId) (f : Line → Line) (w : Work) : (modLine l f w).stations = w.stations := by cases l <;> rfl
@[simp] theorem modLine_working (l : LineId) (f : Line → Line) (w : Work) : (modLine l f w).working = w.working := by cases l <;> rfl
@[simp] theorem modLine_outputs (l : LineId) (f : Line → Line) (w : Work) : (modLine l f w).outputs = w.outputs := by cases l <;> rfl
@[simp] theorem modLine_ramps (l : LineId) (f : Line → Line) (w : Work) : (modLine l f w).ramps = w.ramps := by cases l <;> rfl
@[simp] theorem modLine_boundaries (l : LineId) (f : Line → Line) (w : Work) : (modLine l f w).boundaries = w.boundaries := by cases l <;> rfl
@[simp] theorem modLine_zoneOrders (l : LineId) (f : Line → Line) (w : Work) : (modLine l f w).zoneOrders = w.zoneOrders := by cases l <;> rfl
@[simp] theorem modLine_fireNormal (l : LineId) (f : Line → Line) (w : Work) : (modLine l f w).fireNormal = w.fireNormal := by cases l <;> rfl
@[simp] theorem modLine_fireEmergency (l : LineId) (f : Line → Line) (w : Work) : (modLine l f w).fireEmergency = w.fireEmergency := by cases l <;> rfl
@[simp] theorem modLine_catalogue (l : LineId) (f : Line → Line) (w : Work) : (modLine l f w).catalogue = w.catalogue := by cases l <;> rfl
@[simp] theorem modLine_records (l : LineId) (f : Line → Line) (w : Work) : (modLine l f w).records = w.records := by cases l <;> rfl
@[simp] theorem modLine_zoneCalls (l : LineId) (f : Line → Line) (w : Work) : (modLine l f w).zoneCalls = w.zoneCalls := by cases l <;> rfl
@[simp] theorem modLine_zones (l : LineId) (f : Line → Line) (w : Work) : (modLine l f w).zones = w.zones := by cases l <;> rfl
@[simp] theorem modLine_boundaryView (l : LineId) (f : Line → Line) (w : Work) : (modLine l f w).boundaryView = w.boundaryView := by cases l <;> rfl
@[simp] theorem modLine_rampView (l : LineId) (f : Line → Line) (w : Work) : (modLine l f w).rampView = w.rampView := by cases l <;> rfl
@[simp] theorem modLine_cells (l : LineId) (f : Line → Line) (w : Work) : (modLine l f w).cells = w.cells := by cases l <;> rfl
@[simp] theorem modLine_races (l : LineId) (f : Line → Line) (w : Work) : (modLine l f w).races = w.races := by cases l <;> rfl
@[simp] theorem modLine_outbox (l : LineId) (f : Line → Line) (w : Work) : (modLine l f w).outbox = w.outbox := by cases l <;> rfl
@[simp] theorem modLine_playEnded (l : LineId) (f : Line → Line) (w : Work) : (modLine l f w).playEnded = w.playEnded := by cases l <;> rfl
@[simp] theorem modLine_notices (l : LineId) (f : Line → Line) (w : Work) : (modLine l f w).notices = w.notices := by cases l <;> rfl
@[simp] theorem modLine_stationOf (l : LineId) (f : Line → Line) (w : Work) (n : Nat) :
    stationOf (modLine l f w).toDeck n = stationOf w.toDeck n := by cases l <;> rfl
@[simp] theorem modLine_inputSet (l : LineId) (f : Line → Line) (w : Work) (n i : Nat) :
    inputSet (modLine l f w).toDeck n i = inputSet w.toDeck n i := by cases l <;> rfl
@[simp] theorem modLine_inputClear (l : LineId) (f : Line → Line) (w : Work) (n i : Nat) :
    inputClear (modLine l f w).toDeck n i = inputClear w.toDeck n i := by cases l <;> rfl
@[simp] theorem modLine_workingOf (l : LineId) (f : Line → Line) (w : Work) (n : Nat) :
    workingOf (modLine l f w).toDeck n = workingOf w.toDeck n := by cases l <;> rfl
@[simp] theorem modLine_outputOf (l : LineId) (f : Line → Line) (w : Work) (n : Nat) :
    outputOf (modLine l f w).toDeck n = outputOf w.toDeck n := by cases l <;> rfl
@[simp] theorem modLine_rampOf (l : LineId) (f : Line → Line) (w : Work) (n : Nat) :
    rampOf (modLine l f w).toDeck n = rampOf w.toDeck n := by cases l <;> rfl

/-- A line changed is that line. -/
@[simp] theorem modLine_lineOf_self (l : LineId) (f : Line → Line) (w : Work) :
    lineOf (modLine l f w).toDeck l = f (lineOf w.toDeck l) := by cases l <;> rfl

/-- A change of one line leaves the other alone. -/
@[simp] theorem modLine_lineOf_flip (l : LineId) (f : Line → Line) (w : Work) :
    lineOf (modLine l f w).toDeck (flipLine l) = lineOf w.toDeck (flipLine l) := by cases l <;> rfl

theorem modLine_lineOf (l k : LineId) (f : Line → Line) (w : Work) :
    lineOf (modLine l f w).toDeck k = if l = k then f (lineOf w.toDeck k) else lineOf w.toDeck k := by
  cases l <;> cases k <;> rfl

@[simp] theorem modRamp_rampOf_self {u : Nat} (h : u < 4) (f : Ramp → Ramp) (w : Work) :
    rampOf (modRamp u f w).toDeck u = f (rampOf w.toDeck u) := by simp [rampOf, h]

@[simp] theorem modRamp_rampOf_ne {u v : Nat} (h : u ≠ v) (f : Ramp → Ramp) (w : Work) :
    rampOf (modRamp u f w).toDeck v = rampOf w.toDeck v := by simp [rampOf, h]

/-! ## The machine -/

end Sys2Proof.Machine
end

