-- ==== Sys2Proof/Laws/Calls.lean ====
section
/-! SUPPORT. The frame of the call unit: what its operations leave alone. `outsideCalls` is the work with everything that
they write set aside, so that `outsideCalls (f w) = outsideCalls w` says that `f` changes nothing else. -/

namespace Sys2Proof.Machine

/-- A projection that each step of a run keeps is kept by the run. -/
theorem each_keeps {α β : Type} {p : Work → β} {f : α → Work → Work} {l : List α}
    (h : ∀ x ∈ l, ∀ w, p (f x w) = p w) (w : Work) : p (each l f w) = p w := by
  induction l generalizing w with
  | nil => rfl
  | cons x rest ih =>
    have : each (x :: rest) f w = each rest f (f x w) := rfl
    rw [this, ih (fun y hy => h y (List.mem_cons_of_mem _ hy)), h x List.mem_cons_self]

@[simp] theorem each_nil {α : Type} (f : α → Work → Work) (w : Work) : each [] f w = w := rfl

@[simp] theorem each_cons {α : Type} (x : α) (l : List α) (f : α → Work → Work) (w : Work) :
    each (x :: l) f w = each l f (f x w) := rfl

/-- A property that each step of a run keeps holds after the run. -/
theorem each_induct {α : Type} {P : Work → Prop} {f : α → Work → Work} {l : List α}
    (h : ∀ x ∈ l, ∀ w, P w → P (f x w)) {w : Work} (hw : P w) : P (each l f w) := by
  induction l generalizing w with
  | nil => exact hw
  | cons x rest ih =>
    exact ih (fun y hy => h y (List.mem_cons_of_mem _ hy)) (h x List.mem_cons_self w hw)

/-- The work with the queues, the records, the outputs and what the call unit hands on set aside. -/
def outsideCalls (w : Work) : Work :=
  { w with outputs := Vector.replicate 48 .none, records := Vector.replicate 32 {}, zoneCalls := Vector.replicate 16 {},
           outbox := [], playEnded := [], notices := [] }

/-! What an equality of `outsideCalls` says of each field. -/

theorem lineA_of_calls {w w' : Work} (h : outsideCalls w' = outsideCalls w) : w'.lineA = w.lineA :=
  (congrArg (fun x : Work => x.lineA) h :)
theorem lineB_of_calls {w w' : Work} (h : outsideCalls w' = outsideCalls w) : w'.lineB = w.lineB :=
  (congrArg (fun x : Work => x.lineB) h :)
theorem classes_of_calls {w w' : Work} (h : outsideCalls w' = outsideCalls w) : w'.classes = w.classes :=
  (congrArg (fun x : Work => x.classes) h :)
theorem stations_of_calls {w w' : Work} (h : outsideCalls w' = outsideCalls w) : w'.stations = w.stations :=
  (congrArg (fun x : Work => x.stations) h :)
theorem working_of_calls {w w' : Work} (h : outsideCalls w' = outsideCalls w) : w'.working = w.working :=
  (congrArg (fun x : Work => x.working) h :)
theorem ramps_of_calls {w w' : Work} (h : outsideCalls w' = outsideCalls w) : w'.ramps = w.ramps :=
  (congrArg (fun x : Work => x.ramps) h :)
theorem boundaries_of_calls {w w' : Work} (h : outsideCalls w' = outsideCalls w) : w'.boundaries = w.boundaries :=
  (congrArg (fun x : Work => x.boundaries) h :)
theorem zoneOrders_of_calls {w w' : Work} (h : outsideCalls w' = outsideCalls w) : w'.zoneOrders = w.zoneOrders :=
  (congrArg (fun x : Work => x.zoneOrders) h :)
theorem fireNormal_of_calls {w w' : Work} (h : outsideCalls w' = outsideCalls w) : w'.fireNormal = w.fireNormal :=
  (congrArg (fun x : Work => x.fireNormal) h :)
theorem fireEmergency_of_calls {w w' : Work} (h : outsideCalls w' = outsideCalls w) : w'.fireEmergency = w.fireEmergency :=
  (congrArg (fun x : Work => x.fireEmergency) h :)
theorem catalogue_of_calls {w w' : Work} (h : outsideCalls w' = outsideCalls w) : w'.catalogue = w.catalogue :=
  (congrArg (fun x : Work => x.catalogue) h :)
theorem zones_of_calls {w w' : Work} (h : outsideCalls w' = outsideCalls w) : w'.zones = w.zones :=
  (congrArg (fun x : Work => x.zones) h :)
theorem boundaryView_of_calls {w w' : Work} (h : outsideCalls w' = outsideCalls w) : w'.boundaryView = w.boundaryView :=
  (congrArg (fun x : Work => x.boundaryView) h :)
theorem rampView_of_calls {w w' : Work} (h : outsideCalls w' = outsideCalls w) : w'.rampView = w.rampView :=
  (congrArg (fun x : Work => x.rampView) h :)
theorem cells_of_calls {w w' : Work} (h : outsideCalls w' = outsideCalls w) : w'.cells = w.cells :=
  (congrArg (fun x : Work => x.cells) h :)
theorem races_of_calls {w w' : Work} (h : outsideCalls w' = outsideCalls w) : w'.races = w.races :=
  (congrArg (fun x : Work => x.races) h :)

variable (e : Env) (w : Work)

@[simp] theorem outsideCalls_modZoneCalls (z : Nat) (f : ZoneCalls → ZoneCalls) :
    outsideCalls (modZoneCalls z f w) = outsideCalls w := rfl
@[simp] theorem outsideCalls_modRecord (r : Nat) (f : CallRecord → CallRecord) :
    outsideCalls (modRecord r f w) = outsideCalls w := rfl
@[simp] theorem outsideCalls_setOutput (a : Nat) (o : Output) : outsideCalls (setOutput a o w) = outsideCalls w := rfl
@[simp] theorem outsideCalls_complete (k : Nat) (r : Result) (d : List Byte) :
    outsideCalls (complete k r d w) = outsideCalls w := rfl

@[simp] theorem outsideCalls_modCallOutput (z : Nat) (f : CallOutput → CallOutput) :
    outsideCalls (modCallOutput e z f w) = outsideCalls w := by
  unfold modCallOutput; split <;> simp

@[simp] theorem outsideCalls_endPlay (z : Nat) : outsideCalls (endPlay z w) = outsideCalls w := by
  unfold endPlay; dsimp only; split <;> rfl

@[simp] theorem outsideCalls_startPlay (z : Nat) : outsideCalls (startPlay e z w) = outsideCalls w := by
  unfold startPlay; split <;> simp

@[simp] theorem outsideCalls_waitPlay (z : Nat) : outsideCalls (waitPlay e z w) = outsideCalls w := by
  simp [waitPlay]

@[simp] theorem outsideCalls_idlePlay (z : Nat) : outsideCalls (idlePlay e z w) = outsideCalls w := by
  simp [idlePlay]

@[simp] theorem outsideCalls_playHead (z : Nat) : outsideCalls (playHead e z w) = outsideCalls w := by
  unfold playHead; split <;> [simp; (split <;> simp)]

@[simp] theorem outsideCalls_holdLamp (z : Nat) : outsideCalls (holdLamp e z w) = outsideCalls w := by
  simp [holdLamp]

@[simp] theorem outsideCalls_modProgress (r z : Nat) (f : Progress → Progress) :
    outsideCalls (modProgress r z f w) = outsideCalls w := rfl

@[simp] theorem outsideCalls_setOutcome (r z : Nat) (o : CallOutcome) :
    outsideCalls (setOutcome r z o w) = outsideCalls w := rfl

@[simp] theorem outsideCalls_withQueue (z : Nat) (q : List QueueEntry) :
    outsideCalls (withQueue e z q w) = outsideCalls w := by
  unfold withQueue; dsimp only; split <;> [simp; (split <;> simp)]

@[simp] theorem outsideCalls_leaveQueue (z r : Nat) : outsideCalls (leaveQueue e z r w) = outsideCalls w := by
  unfold leaveQueue; dsimp only; split <;> simp

@[simp] theorem outsideCalls_finishEntry (z r : Nat) (o : CallOutcome) :
    outsideCalls (finishEntry e z r o w) = outsideCalls w := by
  simp [finishEntry]

@[simp] theorem outsideCalls_enterQueue (z r p : Nat) : outsideCalls (enterQueue e z r p w) = outsideCalls w := by
  unfold enterQueue; dsimp only
  split
  · rfl
  · split
    · simp
    · split
      · split <;> simp
      · rfl

@[simp] theorem outsideCalls_placeZone (r z : Nat) : outsideCalls (placeZone e r z w) = outsideCalls w := by
  unfold placeZone; split <;> simp

@[simp] theorem outsideCalls_withdrawZone (r z : Nat) : outsideCalls (withdrawZone e r z w) = outsideCalls w := by
  unfold withdrawZone; split <;> simp

@[simp] theorem outsideCalls_withdrawAll (r : Nat) : outsideCalls (withdrawAll e r w) = outsideCalls w :=
  each_keeps (fun _ _ _ => by simp) w

@[simp] theorem outsideCalls_activate (r m p n : Nat) (src : CallSource) (i : Nat) (t zs : Word) :
    outsideCalls (activate e r m p n src i t zs w) = outsideCalls w := rfl

@[simp] theorem outsideCalls_endRecord (r : Nat) : outsideCalls (endRecord e r w) = outsideCalls w := rfl

@[simp] theorem outsideCalls_endBridge (r : Nat) (x : Result) : outsideCalls (endBridge e r x w) = outsideCalls w := by
  simp [endBridge]

@[simp] theorem outsideCalls_settleRecord (r : Nat) : outsideCalls (settleRecord e r w) = outsideCalls w := by
  unfold settleRecord; dsimp only; split <;> simp

@[simp] theorem outsideCalls_settleRecords : outsideCalls (settleRecords e w) = outsideCalls w :=
  each_keeps (fun _ _ _ => by simp) w

@[simp] theorem outsideCalls_placeCall (k m p n : Nat) (zs : Word) :
    outsideCalls (placeCall e k m p n zs w) = outsideCalls w := by
  unfold placeCall
  split
  · simp
  · split
    · simp
    · split
      · simp
      · exact (each_keeps (p := outsideCalls) (fun _ _ _ => by simp) _).trans (by simp)

@[simp] theorem outsideCalls_cancelRecord (k r : Nat) (i : Byte) :
    outsideCalls (cancelRecord e k r i w) = outsideCalls w := by
  unfold cancelRecord; split <;> simp

@[simp] theorem outsideCalls_startWarning (u : Nat) : outsideCalls (startWarning e u w) = outsideCalls w := by
  unfold startWarning; dsimp only
  split
  · rfl
  · exact (each_keeps (p := outsideCalls) (fun _ _ _ => by simp) _).trans (by simp)

@[simp] theorem outsideCalls_endWarning (u : Nat) : outsideCalls (endWarning e u w) = outsideCalls w := by
  unfold endWarning; dsimp only; split <;> simp

@[simp] theorem outsideCalls_leaveFire (r z : Nat) : outsideCalls (leaveFire e r z w) = outsideCalls w := by
  simp [leaveFire]

@[simp] theorem outsideCalls_joinFire (b : Bool) (r z : Nat) :
    outsideCalls (joinFire e b r z w) = outsideCalls w := by
  unfold joinFire; dsimp only
  split <;> simp

@[simp] theorem outsideCalls_settleFire (r : Nat) : outsideCalls (settleFire e r w) = outsideCalls w := by
  unfold settleFire; split <;> simp

@[simp] theorem outsideCalls_fireHandover (a b c d : Word) :
    outsideCalls (fireHandover e a b c d w) = outsideCalls w := by
  unfold fireHandover; dsimp only
  simp only [outsideCalls_settleFire]
  rw [each_keeps (p := outsideCalls) (fun _ _ _ => by simp), each_keeps (p := outsideCalls) (fun _ _ _ => by simp),
    each_keeps (p := outsideCalls) (fun _ _ _ => by simp), each_keeps (p := outsideCalls) (fun _ _ _ => by simp)]

@[simp] theorem outsideCalls_notices (n : List Notice) :
    outsideCalls { w with notices := n } = outsideCalls w := rfl

@[simp] theorem outsideCalls_playHeard (z : Nat) : outsideCalls (playHeard e z w) = outsideCalls w := by
  unfold playHeard
  split
  · rfl
  · next q rest hq =>
    extract_lets r w1 w2 x
    have h1 : outsideCalls w2 = outsideCalls w := by
      simp only [w2]
      split
      · exact (outsideCalls_notices _ _).trans (by simp [w1])
      · simp [w1]
    split
    · simp [h1]
    · split <;> simp [h1]

@[simp] theorem outsideCalls_callValues (z i n : Nat) : outsideCalls (callValues e z i n w) = outsideCalls w := by
  unfold callValues
  dsimp only
  split
  · simp
  · split
    · split <;> simp
    · simp
  all_goals simp

@[simp] theorem outsideCalls_lingerEnds (z : Nat) : outsideCalls (lingerEnds e z w) = outsideCalls w := by
  simp [lingerEnds]

@[simp] theorem outsideCalls_pauseEnds (z : Nat) : outsideCalls (pauseEnds e z w) = outsideCalls w := by
  simp [pauseEnds]

@[simp] theorem outsideCalls_callStationSilent (a : Nat) :
    outsideCalls (callStationSilent e a w) = outsideCalls w := by
  unfold callStationSilent
  split
  · rfl
  · dsimp only
    exact (outsideCalls_notices _ _).trans (by simp)

@[simp] theorem outsideCalls_callStationBack (a : Nat) : outsideCalls (callStationBack e a w) = outsideCalls w := by
  unfold callStationBack
  split
  · rfl
  · split
    · rfl
    · split <;> simp

/-! ## Completion reports: only the end of a bridge record makes one -/

@[simp] theorem outbox_modCallOutput (z : Nat) (f : CallOutput → CallOutput) :
    (modCallOutput e z f w).outbox = w.outbox := by
  unfold modCallOutput; split <;> simp

@[simp] theorem outbox_endPlay (z : Nat) : (endPlay z w).outbox = w.outbox := by
  unfold endPlay; dsimp only; split <;> rfl

@[simp] theorem outbox_startPlay (z : Nat) : (startPlay e z w).outbox = w.outbox := by
  unfold startPlay; split <;> simp

@[simp] theorem outbox_waitPlay (z : Nat) : (waitPlay e z w).outbox = w.outbox := by
  simp [waitPlay]

@[simp] theorem outbox_idlePlay (z : Nat) : (idlePlay e z w).outbox = w.outbox := by
  simp [idlePlay]

@[simp] theorem outbox_playHead (z : Nat) : (playHead e z w).outbox = w.outbox := by
  unfold playHead; split <;> [simp; (split <;> simp)]

@[simp] theorem outbox_holdLamp (z : Nat) : (holdLamp e z w).outbox = w.outbox := by
  simp [holdLamp]

@[simp] theorem outbox_modProgress (r z : Nat) (f : Progress → Progress) :
    (modProgress r z f w).outbox = w.outbox := rfl

@[simp] theorem outbox_setOutcome (r z : Nat) (o : CallOutcome) :
    (setOutcome r z o w).outbox = w.outbox := rfl

@[simp] theorem outbox_withQueue (z : Nat) (q : List QueueEntry) :
    (withQueue e z q w).outbox = w.outbox := by
  unfold withQueue; dsimp only; split <;> [simp; (split <;> simp)]

@[simp] theorem outbox_leaveQueue (z r : Nat) : (leaveQueue e z r w).outbox = w.outbox := by
  unfold leaveQueue; dsimp only; split <;> simp

@[simp] theorem outbox_finishEntry (z r : Nat) (o : CallOutcome) :
    (finishEntry e z r o w).outbox = w.outbox := by
  simp [finishEntry]

@[simp] theorem outbox_enterQueue (z r p : Nat) : (enterQueue e z r p w).outbox = w.outbox := by
  unfold enterQueue; dsimp only
  split
  · rfl
  · split
    · simp
    · split
      · split <;> simp
      · rfl

@[simp] theorem outbox_placeZone (r z : Nat) : (placeZone e r z w).outbox = w.outbox := by
  unfold placeZone; split <;> simp

@[simp] theorem outbox_withdrawZone (r z : Nat) : (withdrawZone e r z w).outbox = w.outbox := by
  unfold withdrawZone; split <;> simp

@[simp] theorem outbox_withdrawAll (r : Nat) : (withdrawAll e r w).outbox = w.outbox :=
  each_keeps (fun _ _ _ => by simp) w

@[simp] theorem outbox_activate (r m p n : Nat) (src : CallSource) (i : Nat) (t zs : Word) :
    (activate e r m p n src i t zs w).outbox = w.outbox := rfl

@[simp] theorem outbox_endRecord (r : Nat) : (endRecord e r w).outbox = w.outbox := rfl

@[simp] theorem outbox_startWarning (u : Nat) : (startWarning e u w).outbox = w.outbox := by
  unfold startWarning; dsimp only
  split
  · rfl
  · exact (each_keeps (p := fun w => w.outbox) (fun _ _ _ => by simp) _).trans (by simp)

@[simp] theorem outbox_endWarning (u : Nat) : (endWarning e u w).outbox = w.outbox := by
  unfold endWarning; dsimp only; split <;> simp

@[simp] theorem outbox_leaveFire (r z : Nat) : (leaveFire e r z w).outbox = w.outbox := by
  simp [leaveFire]

@[simp] theorem outbox_joinFire (b : Bool) (r z : Nat) :
    (joinFire e b r z w).outbox = w.outbox := by
  unfold joinFire; dsimp only
  split <;> simp

@[simp] theorem outbox_settleFire (r : Nat) : (settleFire e r w).outbox = w.outbox := by
  unfold settleFire; split <;> simp

@[simp] theorem outbox_fireHandover (a b c d : Word) :
    (fireHandover e a b c d w).outbox = w.outbox := by
  unfold fireHandover; dsimp only
  simp only [outbox_settleFire]
  rw [each_keeps (p := fun w => w.outbox) (fun _ _ _ => by simp), each_keeps (p := fun w => w.outbox) (fun _ _ _ => by simp),
    each_keeps (p := fun w => w.outbox) (fun _ _ _ => by simp), each_keeps (p := fun w => w.outbox) (fun _ _ _ => by simp)]

@[simp] theorem outbox_playHeard (z : Nat) : (playHeard e z w).outbox = w.outbox := by
  unfold playHeard
  split
  · rfl
  · next q rest hq =>
    extract_lets r w1 w2 x
    have h1 : w2.outbox = w.outbox := by
      simp only [w2]
      split
      · simp [w1]
      · simp [w1]
    split
    · simp [h1]
    · split <;> simp [h1]

@[simp] theorem outbox_callValues (z i n : Nat) : (callValues e z i n w).outbox = w.outbox := by
  unfold callValues
  dsimp only
  split
  · simp
  · split
    · split <;> simp
    · simp
  all_goals simp

@[simp] theorem outbox_lingerEnds (z : Nat) : (lingerEnds e z w).outbox = w.outbox := by
  simp [lingerEnds]

@[simp] theorem outbox_pauseEnds (z : Nat) : (pauseEnds e z w).outbox = w.outbox := by
  simp [pauseEnds]

@[simp] theorem outbox_callStationSilent (a : Nat) :
    (callStationSilent e a w).outbox = w.outbox := by
  unfold callStationSilent
  split
  · rfl
  · dsimp only
    simp

/-! ## Attention -/

/-- A station without its muted count. -/
def unmutedCount (s : Station) : Station := { s with mutedCount := 0 }

/-- A change of one entry that a projection of the entries ignores changes no projected entry. -/
theorem map_tmod {α β : Type} [Inhabited α] {n : Nat} (t : Vector α n) (i : Nat) {f : α → α} {g : α → β}
    (h : ∀ x, g (f x) = g x) : (tmod t i f).map g = t.map g := by
  ext j hj
  simp only [Vector.getElem_map, tmod, tput, Vector.getElem_setIfInBounds]
  split
  · next e => subst e; rw [tget_of_lt t hj, h]
  · rfl

/-- The work with the attention cells and the muted counts set aside. -/
def outsideAttention (w : Work) : Work :=
  { w with cells := Vector.replicate 50 {}, stations := w.stations.map unmutedCount }

@[simp] theorem outsideAttention_placeAttention (c : Nat) (k : AttentionKind) (v : Nat) (d : Word) :
    outsideAttention (placeAttention e c k v d w) = outsideAttention w := rfl

@[simp] theorem outsideAttention_raiseStation (a : Nat) (k : AttentionKind) (d : Word) :
    outsideAttention (raiseStation e a k d w) = outsideAttention w := by
  unfold raiseStation
  dsimp only
  split
  · rfl
  · split
    · rfl
    · split
      · simp only [outsideAttention, modStation]
        rw [map_tmod w.stations (stationIndex a) (f := fun s => { s with mutedCount := satAdd 255 s.mutedCount })
          (g := unmutedCount) (fun _ => rfl)]
      · rfl
  · rfl

@[simp] theorem outsideAttention_raiseLine (l : LineId) (k : AttentionKind) (d : Word) :
    outsideAttention (raiseLine e l k d w) = outsideAttention w := by
  unfold raiseLine
  dsimp only
  split <;> rfl

/-- A raise reaches no cell but its station's. -/
theorem raiseStation_cells (a : Nat) (k : AttentionKind) (d : Word) {c : Nat} (h : c ≠ stationCell a) :
    tget (raiseStation e a k d w).cells c = tget w.cells c := by
  unfold raiseStation
  dsimp only
  split
  · simp [Ne.symm h]
  · split
    · rfl
    · split
      · rfl
      · simp [Ne.symm h]
  · rfl

/-- A raise changes no station but its own, and of that one the muted count only. -/
theorem raiseStation_stations (a : Nat) (k : AttentionKind) (d : Word) {i : Nat} (h : i ≠ stationIndex a) :
    tget (raiseStation e a k d w).stations i = tget w.stations i := by
  unfold raiseStation
  dsimp only
  split
  · rfl
  · split
    · rfl
    · split
      · simp [Ne.symm h]
      · rfl
  · rfl

/-- The work with everything that calls and attentions write set aside. -/
def outsideBoth (w : Work) : Work := outsideAttention (outsideCalls w)

theorem outsideBoth_of_calls {w w' : Work} (h : outsideCalls w' = outsideCalls w) :
    outsideBoth w' = outsideBoth w := congrArg outsideAttention h

theorem outsideBoth_of_attention {w w' : Work} (h : outsideAttention w' = outsideAttention w) :
    outsideBoth w' = outsideBoth w := by
  have : outsideCalls (outsideAttention w') = outsideCalls (outsideAttention w) := congrArg outsideCalls h
  exact this

@[simp] theorem outsideBoth_raiseCallFault (a r c : Nat) :
    outsideBoth (raiseCallFault e a r c w) = outsideBoth w :=
  outsideBoth_of_attention (outsideAttention_raiseStation e w a _ _)

@[simp] theorem outsideBoth_playFault (z a c : Nat) : outsideBoth (playFault e z a c w) = outsideBoth w := by
  unfold playFault
  split
  · rw [outsideBoth_raiseCallFault]; exact outsideBoth_of_calls (by simp)
  · rfl

@[simp] theorem outsideBoth_amplifierFault (z a : Nat) : outsideBoth (amplifierFault e z a w) = outsideBoth w := by
  unfold amplifierFault; split <;> simp

@[simp] theorem outsideBoth_callStationReport (a : Nat) (r : StationReport) :
    outsideBoth (callStationReport e a r w) = outsideBoth w := by
  unfold callStationReport
  split
  · rfl
  · dsimp only
    split
    · rw [outsideBoth_amplifierFault]; exact outsideBoth_of_calls (by simp)
    · exact outsideBoth_of_calls (by simp)

@[simp] theorem outsideBoth_playTimeoutEnds (z : Nat) : outsideBoth (playTimeoutEnds e z w) = outsideBoth w := by
  unfold playTimeoutEnds; split <;> simp

end Sys2Proof.Machine
end

