-- ==== Sys2Proof/Laws/Configuration.lean ====
section
/-! SUPPORT. What the checks of START SERVICE give (R178): the tables pass one by one, and each station that a ramp or a door
names has its kind and is named by no other; and they read nothing but the configuration. -/

namespace Sys2Proof.Machine

/-- The heartbeat count that START SERVICE finds decides nothing but the header check of the count itself (R178). -/
theorem configFault_one_of_configFault {m : Memory} {count : Nat} (h : configFault m count = none) :
    configFault m 1 = none := by
  simp only [configFault, Option.or_eq_none_iff, Option.map_eq_none_iff] at h ⊢
  refine ⟨h.1, h.2.1, h.2.2.1, h.2.2.2.1, h.2.2.2.2.1, h.2.2.2.2.2.1, ?_⟩
  have header := h.2.2.2.2.2.2
  simp only [headerFault, firstFailing, Option.map_eq_none_iff, List.find?_eq_none, List.forall_mem_cons] at header ⊢
  simp_all

/-- A table without a failure has no failing record. -/
theorem tableFault_eq_none {indexes : List Nat} {check : Nat → Option Nat} :
    tableFault indexes check = none ↔ ∀ i ∈ indexes, check i = none := by
  simp [tableFault]

/-- The records of a configuration that passes every check pass their own (R178). -/
theorem records_pass {m : Memory} {count : Nat} (h : configFault m count = none) :
    (∀ z < 16, zoneFault m z = none) ∧ (∀ b < 24, boundaryFault m b = none) ∧ ∀ u < 4, rampFault m u = none := by
  simp only [configFault, Option.or_eq_none_iff, Option.map_eq_none_iff, tableFault_eq_none, List.mem_range] at h
  exact ⟨h.2.1, h.2.2.1, h.2.2.2.1⟩

/-- A list of checks without a failure holds in each. -/
theorem firstFailing_eq_none {checks : List (Nat × Bool)} : firstFailing checks = none ↔ ∀ c ∈ checks, c.2 = true := by
  simp [firstFailing]

/-- A station of a kind has an address of the table. -/
theorem stationOfKind_iff {m : Memory} {addr k : Nat} :
    stationOfKind m addr k = true ↔ (1 ≤ addr ∧ addr ≤ 48) ∧ byteAt m (stationBase addr) = k := by
  simp [stationOfKind, within]

/-- The station of a ramp in use is a RAMP station that no lower ramp names, and its panel station, if it has one, a PANEL
station that no lower ramp names (R69). -/
theorem ramp_stations {m : Memory} {u : Nat} (h : rampFault m u = none) (used : (rampConfig m u).inUse = true) :
    tableKind m (rampConfig m u).station = .ramp ∧
      (∀ v < u, (rampConfig m v).station ≠ (rampConfig m u).station) ∧
      ((rampConfig m u).panel ≠ 0 →
        tableKind m (rampConfig m u).panel = .panel ∧ ∀ v < u, (rampConfig m v).panel ≠ (rampConfig m u).panel) := by
  have named : (rampConfig m u).station ≠ 0 := by
    have range := of_decide_eq_true used
    omega
  rw [rampFault, if_neg named, firstFailing_eq_none] at h
  have station := h _ (List.mem_cons_self ..)
  have panel := h _ (List.mem_cons_of_mem _ (List.mem_cons_self ..))
  simp only [Bool.and_eq_true, Bool.or_eq_true, stationOfKind_iff, namedByNoLower, List.all_eq_true, List.mem_range,
    bne_iff_ne, beq_iff_eq] at station panel
  refine ⟨by simp [tableKind, station.1.2, stationKindOf], station.2, fun has => ?_⟩
  obtain absent | present := panel
  · exact absurd absent has
  · exact ⟨by simp [tableKind, present.1.2, stationKindOf], present.2⟩

/-- The station of a door is a DOOR station that no lower boundary names (R99). -/
theorem door_station {m : Memory} {b : Nat} (h : boundaryFault m b = none) (door : (boundaryConfig m b).isDoor = true) :
    tableKind m (boundaryConfig m b).doorStation = .door ∧
      ∀ c < b, (boundaryConfig m c).doorStation ≠ (boundaryConfig m b).doorStation := by
  have kind : (boundaryConfig m b).kind = 1 := by simpa [BoundaryConfig.isDoor] using door
  rw [boundaryFault, if_neg (by omega), firstFailing_eq_none] at h
  have station := h _ (List.mem_cons_of_mem _ (List.mem_cons_of_mem _ (List.mem_cons_of_mem _ (List.mem_cons_self ..))))
  simp only [door, if_true, Bool.and_eq_true, stationOfKind_iff, namedByNoLower, List.all_eq_true, List.mem_range,
    bne_iff_ne] at station
  exact ⟨by simp [tableKind, station.1.2, stationKindOf], station.2⟩

/-- The call station of a zone in use is a CALL station that no lower zone names (R3). -/
theorem zone_station {m : Memory} {z addr : Nat} (h : zoneFault m z = none) (names : zoneStation m z = some addr) :
    tableKind m addr = .call ∧ ∀ y < z, (zoneConfig m y).callStation ≠ addr := by
  simp only [zoneStation, Option.ite_none_right_eq_some, Bool.and_eq_true, bne_iff_ne, Option.some.injEq] at names
  obtain ⟨⟨used, named⟩, rfl⟩ := names
  have deck : (zoneConfig m z).deck ≠ 0 := by
    intro zero
    simp [ZoneConfig.inUse, zero] at used
  rw [zoneFault, if_neg deck, firstFailing_eq_none] at h
  have station := h _ (List.mem_cons_of_mem _ (List.mem_cons_self ..))
  simp only [Bool.or_eq_true, Bool.and_eq_true, beq_iff_eq, stationOfKind_iff, namedByNoLower, List.all_eq_true,
    List.mem_range, bne_iff_ne] at station
  obtain absent | present := station
  · exact absurd absent named
  · exact ⟨by simp [tableKind, present.1.2, stationKindOf], present.2⟩

/-! ## What the checks read -/

/-- Two memories agree on the configuration: the header fields from 0x0E to 0x15, and the records from 0x0900 (9.1). -/
def sameConfiguration (m m' : Memory) : Prop := ∀ a, (0x0E ≤ a ∧ a < 0x16) ∨ 0x0900 ≤ a → memRead m' a = memRead m a

theorem sameConfiguration.byteAt {m m' : Memory} (h : sameConfiguration m m') {a : Nat}
    (inTable : (0x0E ≤ a ∧ a < 0x16) ∨ 0x0900 ≤ a) : byteAt m' a = byteAt m a := by
  simp only [Machine.byteAt, h a inTable]

theorem sameConfiguration.memReadWord {m m' : Memory} (h : sameConfiguration m m') {a : Nat} (inTable : 0x0900 ≤ a) :
    memReadWord m' a = memReadWord m a := by
  simp only [Machine.memReadWord, h a (.inr inTable), h (a + 1) (.inr (by omega))]

/-- The records of the tables are those of the configuration (R1, R37, R69, R98, R123). -/
theorem sameConfiguration.records {m m' : Memory} (h : sameConfiguration m m') :
    stationConfig m' = stationConfig m ∧ zoneConfig m' = zoneConfig m ∧ boundaryConfig m' = boundaryConfig m ∧
      rampConfig m' = rampConfig m ∧ catalogueEntry m' = catalogueEntry m := by
  refine ⟨?_, ?_, ?_, ?_, ?_⟩ <;> funext i
  · simp (disch := (unfold stationBase; omega)) only [stationConfig, tableKind, h.byteAt]
  · simp (disch := (unfold zoneBase; omega)) only [zoneConfig, h.byteAt]
  · simp (disch := (unfold boundaryBase; omega)) only [boundaryConfig, h.byteAt]
  · simp (disch := (unfold rampBase; omega)) only [rampConfig, wordAt, signedAt, h.byteAt, h.memReadWord]
  · simp (disch := (unfold catalogueBase; omega)) only [catalogueEntry, wordAt, h.byteAt, h.memReadWord]

/-- The checks of START SERVICE read nothing but the configuration (R178). -/
theorem sameConfiguration.configFault {m m' : Memory} (h : sameConfiguration m m') : configFault m' = configFault m := by
  obtain ⟨-, zones, boundaries, ramps, -⟩ := h.records
  have kinds : stationOfKind m' = stationOfKind m := by
    funext addr k
    simp (disch := (unfold stationBase; omega)) only [stationOfKind, h.byteAt]
  have durations : messageDuration m' = messageDuration m := by
    funext n
    simp (disch := (unfold catalogueBase; omega)) only [messageDuration, wordAt, h.memReadWord]
  have used : zoneUsed m' = zoneUsed m := by
    funext z
    simp only [zoneUsed, zones]
  have adjacent : adjacencyOk m' = adjacencyOk m := by
    funext z c k
    simp only [adjacencyOk, boundaries]
  have named : boundaryZoneOk m' = boundaryZoneOk m := by
    funext b z
    simp only [boundaryZoneOk, zones, used]
  have stationTable : stationFault m' = stationFault m := by
    funext n
    simp (disch := (unfold stationBase; omega)) only [stationFault, h.byteAt]
  have zoneTable : zoneFault m' = zoneFault m := by
    funext z
    simp only [zoneFault, zones, ramps, kinds, adjacent]
  have boundaryTable : boundaryFault m' = boundaryFault m := by
    funext b
    simp only [boundaryFault, boundaries, ramps, kinds, named]
  have rampTable : rampFault m' = rampFault m := by
    funext u
    simp only [rampFault, boundaries, ramps, kinds, used]
  have entryTable : entryFault m' = entryFault m := by
    funext n
    simp (disch := (unfold catalogueBase; omega)) only [entryFault, durations, h.byteAt]
  have warnings : warningFault m' = warningFault m := by simp only [warningFault, ramps, durations]
  have header : headerFault m' = headerFault m := by
    funext n
    have level (l : LineId) : lineCellLevel m' l = lineCellLevel m l := by
      cases l <;> simp (disch := decide) only [lineCellLevel, h.byteAt]
    have message (emergency : Bool) : fireMessage m' emergency = fireMessage m emergency := by
      simp (disch := decide) only [fireMessage, h.byteAt]
    simp (disch := decide) only [headerFault, heartbeatEnable, lineRateCode, level, message, messageDefined, durations,
      h.byteAt]
    rfl
  funext n
  simp only [Machine.configFault, stationTable, zoneTable, boundaryTable, rampTable, entryTable, warnings, header]
end Sys2Proof.Machine
end

