-- ==== Sys2Proof/Laws/Memory.lean ====
section
/-! SUPPORT. The laws of the exchange memory: a read after a write, and the canonical form (Machine/Ops.lean). -/

namespace Sys2Proof.Machine

/-! ## Reading after writing -/

/-- A memory in canonical form lists nothing below its first address. -/
theorem memRead_below {low : Nat} {m : Memory} (h : memWfFrom low m = true) {x : Nat} (hx : x < low) :
    memRead m x = unlistedByte := by
  induction m generalizing low with
  | nil => rfl
  | cons q r ihr =>
    obtain ⟨k', w'⟩ := q
    simp only [memWfFrom, Bool.and_eq_true, decide_eq_true_eq] at h
    have : k' ≠ x := by omega
    simp only [memRead, this, if_false]
    exact ihr h.2 (by omega)

/-- A read after a write: the byte written, and every other byte as before. -/
theorem memRead_memWrite_wf {low : Nat} {m : Memory} (h : memWfFrom low m = true) (a b : Nat) (v : Byte) :
    memRead (memWrite m a v) b = if a = b then v else memRead m b := by
  induction m generalizing low with
  | nil =>
    by_cases hv : v = unlistedByte
    · simp [memWrite, memRead, hv]
    · simp [memWrite, memRead, hv]
  | cons p rest ih =>
    obtain ⟨k, w⟩ := p
    simp only [memWfFrom, Bool.and_eq_true, decide_eq_true_eq] at h
    have hlow : ∀ x, x ≤ k → memRead rest x = unlistedByte := fun x hx => memRead_below h.2 (by omega)
    unfold memWrite
    split
    · next hak =>
      split
      · next hv =>
        by_cases hab : a = b
        · subst hab
          have : k ≠ a := by omega
          simp [memRead, this, hlow a (by omega), hv]
        · simp [hab]
      · simp only [memRead]
    · split
      · next hak =>
        subst hak
        split
        · next hv =>
          by_cases hab : a = b
          · subst hab; simp [hlow a (le_refl a), hv]
          · simp [memRead, hab]
        · by_cases hab : a = b <;> simp [memRead, hab]
      · next hka =>
        have hka' : k ≠ a := fun e => hka e.symm
        simp only [memRead]
        by_cases hkb : k = b
        · subst hkb
          have : a ≠ k := fun e => hka' e.symm
          simp [this]
        · simp only [hkb, if_false]
          exact ih h.2

/-- A write keeps the canonical form. -/
theorem memWfFrom_memWrite {low : Nat} {m : Memory} (h : memWfFrom low m = true) {a : Nat} (ha : low ≤ a) (v : Byte) :
    memWfFrom low (memWrite m a v) = true := by
  induction m generalizing low with
  | nil =>
    by_cases hv : v = unlistedByte <;> simp [memWrite, memWfFrom, hv, ha]
  | cons p rest ih =>
    obtain ⟨k, w⟩ := p
    have h0 := h
    simp only [memWfFrom, Bool.and_eq_true, decide_eq_true_eq] at h
    have weaken : ∀ (x y : Nat) (m : Memory), x ≤ y → memWfFrom y m = true → memWfFrom x m = true := by
      intro x y m hxy hm
      cases m with
      | nil => rfl
      | cons q r =>
        obtain ⟨k', w'⟩ := q
        simp only [memWfFrom, Bool.and_eq_true, decide_eq_true_eq] at hm ⊢
        exact ⟨⟨by omega, hm.1.2⟩, hm.2⟩
    unfold memWrite
    split
    · split
      · exact h0
      · next hak hv =>
        simp only [memWfFrom, Bool.and_eq_true, decide_eq_true_eq]
        exact ⟨⟨ha, hv⟩, ⟨⟨by omega, h.1.2⟩, h.2⟩⟩
    · split
      · next hak =>
        split
        · exact weaken _ _ _ (by omega) h.2
        · next hv =>
          simp only [memWfFrom, Bool.and_eq_true, decide_eq_true_eq]
          exact ⟨⟨ha, hv⟩, by subst hak; exact h.2⟩
      · simp only [memWfFrom, Bool.and_eq_true, decide_eq_true_eq]
        exact ⟨h.1, ih h.2 (by omega)⟩

/-- Every write to a memory in canonical form leaves one in canonical form. -/
theorem wf_memWrite {m : Memory} (h : Memory.wf m = true) (a : Nat) (v : Byte) : Memory.wf (memWrite m a v) = true :=
  memWfFrom_memWrite h (Nat.zero_le a) v

/-- Writes of several bytes keep the canonical form. -/
theorem wf_memWriteBytes {m : Memory} (h : Memory.wf m = true) (a : Nat) (l : List Byte) :
    Memory.wf (memWriteBytes m a l) = true := by
  induction l generalizing m a with
  | nil => exact h
  | cons b rest ih => exact ih (wf_memWrite h a b) (a + 1)

/-- A word write keeps the canonical form. -/
theorem wf_memWriteWord {m : Memory} (h : Memory.wf m = true) (a : Nat) (w : Word) :
    Memory.wf (memWriteWord m a w) = true :=
  wf_memWrite (wf_memWrite h a _) (a + 1) _

/-! The other byte of a write needs no canonical form. -/

/-- A write leaves every other byte alone. -/
theorem memRead_memWrite_ne (m : Memory) {a b : Nat} (v : Byte) (h : a ≠ b) :
    memRead (memWrite m a v) b = memRead m b := by
  induction m with
  | nil => by_cases hv : v = unlistedByte <;> simp [memWrite, memRead, hv, h]
  | cons p rest ih =>
    obtain ⟨k, w⟩ := p
    unfold memWrite
    split
    · split
      · rfl
      · simp [memRead, h]
    · split
      · next hak =>
        subst hak
        split <;> simp [memRead, h]
      · simp only [memRead, ih]

/-- Writes of several bytes leave every byte outside them alone. -/
theorem memRead_memWriteBytes_out (m : Memory) {a b : Nat} (l : List Byte) (h : b < a ∨ a + l.length ≤ b) :
    memRead (memWriteBytes m a l) b = memRead m b := by
  induction l generalizing m a with
  | nil => rfl
  | cons x rest ih =>
    simp only [List.length_cons] at h
    rw [memWriteBytes, ih _ (by omega), memRead_memWrite_ne _ _ (by omega)]

/-- A read inside a run of bytes written reads the byte written there. -/
theorem memRead_memWriteBytes_in {m : Memory} (hm : Memory.wf m = true) (a i : Nat) (l : List Byte) (h : i < l.length) :
    memRead (memWriteBytes m a l) (a + i) = l.getD i 0 := by
  induction l generalizing m a i with
  | nil => simp at h
  | cons x rest ih =>
    rw [memWriteBytes]
    cases i with
    | zero =>
      rw [Nat.add_zero, memRead_memWriteBytes_out _ _ (by omega), memRead_memWrite_wf hm]
      simp
    | succ j =>
      have := ih (wf_memWrite hm a x) (a + 1) j (by simpa using h)
      rw [show a + (j + 1) = a + 1 + j by omega, this]
      simp

/-- A word write leaves every byte outside the word alone. -/
theorem memRead_memWriteWord_out (m : Memory) {a b : Nat} (w : Word) (h : b ≠ a ∧ b ≠ a + 1) :
    memRead (memWriteWord m a w) b = memRead m b := by
  rw [memWriteWord, memRead_memWrite_ne _ _ (by omega), memRead_memWrite_ne _ _ (by omega)]

/-- The low byte of a word written. -/
theorem memRead_memWriteWord_low {m : Memory} (hm : Memory.wf m = true) (a : Nat) (w : Word) :
    memRead (memWriteWord m a w) a = lowByte w := by
  rw [memWriteWord, memRead_memWrite_ne _ _ (by omega), memRead_memWrite_wf hm]
  simp

/-- The high byte of a word written. -/
theorem memRead_memWriteWord_high {m : Memory} (hm : Memory.wf m = true) (a : Nat) (w : Word) :
    memRead (memWriteWord m a w) (a + 1) = highByte w := by
  rw [memWriteWord, memRead_memWrite_wf (wf_memWrite hm _ _)]
  simp

/-- A word read after it was written (0.6.5). -/
theorem memReadWord_memWriteWord {m : Memory} (hm : Memory.wf m = true) (a : Nat) (w : Word) :
    memReadWord (memWriteWord m a w) a = w := by
  rw [memReadWord, memRead_memWriteWord_low hm, memRead_memWriteWord_high hm]
  simp only [lowByte, highByte]
  ext i hi
  by_cases h8 : i < 8
  · simp [h8, BitVec.getLsbD_eq_getElem hi]
  · have : 8 + (i - 8) = i := by omega
    simp [h8, this, hi]
    omega

/-! ## Equal memories -/

/-- Two memories in canonical form that read the same everywhere are the same memory. -/
theorem memory_ext {low : Nat} {m m' : Memory} (h : memWfFrom low m = true) (h' : memWfFrom low m' = true)
    (e : ∀ a, memRead m a = memRead m' a) : m = m' := by
  induction m generalizing low m' with
  | nil =>
    cases m' with
    | nil => rfl
    | cons q r =>
      obtain ⟨k, w⟩ := q
      simp only [memWfFrom, Bool.and_eq_true, decide_eq_true_eq] at h'
      have := e k
      simp only [memRead, if_true] at this
      exact absurd this.symm h'.1.2
  | cons p rest ih =>
    obtain ⟨k, w⟩ := p
    cases m' with
    | nil =>
      simp only [memWfFrom, Bool.and_eq_true, decide_eq_true_eq] at h
      have := e k
      simp only [memRead, if_true] at this
      exact absurd this h.1.2
    | cons q r =>
      obtain ⟨k', w'⟩ := q
      simp only [memWfFrom, Bool.and_eq_true, decide_eq_true_eq] at h h'
      have hk : k = k' := by
        by_contra hne
        rcases Nat.lt_or_gt_of_ne hne with hlt | hlt
        · have := e k
          have hx : k' ≠ k := by omega
          simp only [memRead, if_true, hx, if_false, memRead_below h'.2 (show k < k' + 1 by omega)] at this
          exact h.1.2 this
        · have := e k'
          have hx : k ≠ k' := by omega
          simp only [memRead, if_true, hx, if_false, memRead_below h.2 (show k' < k + 1 by omega)] at this
          exact h'.1.2 this.symm
      subst hk
      have hw : w = w' := by simpa [memRead] using e k
      subst hw
      rw [ih h.2 h'.2 ?_]
      intro a
      by_cases ha : k = a
      · subst ha
        rw [memRead_below h.2 (by omega), memRead_below h'.2 (by omega)]
      · simpa [memRead, ha] using e a

end Sys2Proof.Machine
end

