-- ==== Sys2Proof/Laws/Zones.lean ====
section
/-! SUPPORT. The frame of the zone unit: its reports write the views and the zone status, and nothing else. -/

namespace Sys2Proof.Machine

/-- The work with the zone status and the views set aside. -/
def outsideZones (w : Work) : Work :=
  { w with zones := Vector.replicate 16 {}, boundaryView := Vector.replicate 24 {},
           rampView := Vector.replicate 4 .unknown }

/-! What an equality of `outsideZones` says of each field. -/

theorem lineA_of_zones {w w' : Work} (h : outsideZones w' = outsideZones w) : w'.lineA = w.lineA :=
  (congrArg (fun x : Work => x.lineA) h :)
theorem lineB_of_zones {w w' : Work} (h : outsideZones w' = outsideZones w) : w'.lineB = w.lineB :=
  (congrArg (fun x : Work => x.lineB) h :)
theorem classes_of_zones {w w' : Work} (h : outsideZones w' = outsideZones w) : w'.classes = w.classes :=
  (congrArg (fun x : Work => x.classes) h :)
theorem stations_of_zones {w w' : Work} (h : outsideZones w' = outsideZones w) : w'.stations = w.stations :=
  (congrArg (fun x : Work => x.stations) h :)
theorem working_of_zones {w w' : Work} (h : outsideZones w' = outsideZones w) : w'.working = w.working :=
  (congrArg (fun x : Work => x.working) h :)
theorem outputs_of_zones {w w' : Work} (h : outsideZones w' = outsideZones w) : w'.outputs = w.outputs :=
  (congrArg (fun x : Work => x.outputs) h :)
theorem ramps_of_zones {w w' : Work} (h : outsideZones w' = outsideZones w) : w'.ramps = w.ramps :=
  (congrArg (fun x : Work => x.ramps) h :)
theorem boundaries_of_zones {w w' : Work} (h : outsideZones w' = outsideZones w) : w'.boundaries = w.boundaries :=
  (congrArg (fun x : Work => x.boundaries) h :)
theorem zoneOrders_of_zones {w w' : Work} (h : outsideZones w' = outsideZones w) : w'.zoneOrders = w.zoneOrders :=
  (congrArg (fun x : Work => x.zoneOrders) h :)
theorem fireNormal_of_zones {w w' : Work} (h : outsideZones w' = outsideZones w) : w'.fireNormal = w.fireNormal :=
  (congrArg (fun x : Work => x.fireNormal) h :)
theorem fireEmergency_of_zones {w w' : Work} (h : outsideZones w' = outsideZones w) : w'.fireEmergency = w.fireEmergency :=
  (congrArg (fun x : Work => x.fireEmergency) h :)
theorem catalogue_of_zones {w w' : Work} (h : outsideZones w' = outsideZones w) : w'.catalogue = w.catalogue :=
  (congrArg (fun x : Work => x.catalogue) h :)
theorem records_of_zones {w w' : Work} (h : outsideZones w' = outsideZones w) : w'.records = w.records :=
  (congrArg (fun x : Work => x.records) h :)
theorem zoneCalls_of_zones {w w' : Work} (h : outsideZones w' = outsideZones w) : w'.zoneCalls = w.zoneCalls :=
  (congrArg (fun x : Work => x.zoneCalls) h :)
theorem cells_of_zones {w w' : Work} (h : outsideZones w' = outsideZones w) : w'.cells = w.cells :=
  (congrArg (fun x : Work => x.cells) h :)
theorem races_of_zones {w w' : Work} (h : outsideZones w' = outsideZones w) : w'.races = w.races :=
  (congrArg (fun x : Work => x.races) h :)
theorem outbox_of_zones {w w' : Work} (h : outsideZones w' = outsideZones w) : w'.outbox = w.outbox :=
  (congrArg (fun x : Work => x.outbox) h :)
theorem playEnded_of_zones {w w' : Work} (h : outsideZones w' = outsideZones w) : w'.playEnded = w.playEnded :=
  (congrArg (fun x : Work => x.playEnded) h :)
theorem notices_of_zones {w w' : Work} (h : outsideZones w' = outsideZones w) : w'.notices = w.notices :=
  (congrArg (fun x : Work => x.notices) h :)

variable (e : Env) (w : Work)

@[simp] theorem outsideZones_modZone (z : Nat) (f : Zone → Zone) : outsideZones (modZone z f w) = outsideZones w := rfl

@[simp] theorem outsideZones_boundaryReport (b : Nat) (st : BoundaryState) (d : Demand) :
    outsideZones (boundaryReport e b st d w) = outsideZones w :=
  Eq.trans (each_keeps (p := outsideZones) (by intros; rfl) _) rfl

@[simp] theorem outsideZones_rampReport (u : Nat) (st : RampState) :
    outsideZones (rampReport e u st w) = outsideZones w :=
  Eq.trans (each_keeps (p := outsideZones) (by intros; rfl) _) rfl

@[simp] theorem outsideZones_callReport (z r : Nat) (i : Byte) (n : Nat) (t : Option Stamp) :
    outsideZones (callReport z r i n t w) = outsideZones w := rfl

/-- A boundary report sets that boundary's entry of the view (R5). -/
theorem boundaryReport_view (b : Nat) (st : BoundaryState) (d : Demand) :
    (boundaryReport e b st d w).boundaryView = tput w.boundaryView b ⟨st, d⟩ := by
  unfold boundaryReport
  exact Eq.trans (each_keeps (p := fun w => w.boundaryView) (by intros; rfl) _) rfl

@[simp] theorem boundaryReport_rampView (b : Nat) (st : BoundaryState) (d : Demand) :
    (boundaryReport e b st d w).rampView = w.rampView := by
  unfold boundaryReport
  exact Eq.trans (each_keeps (p := fun w => w.rampView) (by intros; rfl) _) rfl

/-- A ramp report sets that ramp's entry of the view (R7). -/
theorem rampReport_view (u : Nat) (st : RampState) :
    (rampReport e u st w).rampView = tput w.rampView u st := by
  unfold rampReport
  exact Eq.trans (each_keeps (p := fun w => w.rampView) (by intros; rfl) _) rfl

@[simp] theorem rampReport_boundaryView (u : Nat) (st : RampState) :
    (rampReport e u st w).boundaryView = w.boundaryView := by
  unfold rampReport
  exact Eq.trans (each_keeps (p := fun w => w.boundaryView) (by intros; rfl) _) rfl

/-- A zone status with its edition set aside. -/
def Zone.bare (z : Zone) : Zone := { z with edition := 0 }

/-- A rewrite leaves the fields that it was given, whatever the edition (R9). -/
theorem rewriteZone_bare (f : Zone → Zone) (z : Zone) : (rewriteZone f z).bare = (f z).bare := by
  unfold rewriteZone
  dsimp only
  split
  · next h =>
    have h2 := congrArg Zone.bare h
    exact h2.symm
  · rfl

/-- The edition moves on by two exactly when a published field changes (R9). -/
theorem rewriteZone_edition (f : Zone → Zone) (z : Zone) :
    (rewriteZone f z).edition = if (f z).bare = z.bare then z.edition else z.edition + 2 := by
  unfold rewriteZone
  dsimp only
  have hiff : { f z with edition := z.edition } = z ↔ (f z).bare = z.bare := by
    constructor
    · intro h
      have h2 := congrArg Zone.bare h
      exact h2
    · intro h
      have h2 := congrArg (fun x : Zone => { x with edition := z.edition }) h
      exact h2
  by_cases h : (f z).bare = z.bare
  · simp [hiff.2 h, h]
  · have h' : ¬ { f z with edition := z.edition } = z := fun x => h (hiff.1 x)
    simp [h', h]

end Sys2Proof.Machine
end

