-- ==== Sys2Proof/Laws/Events.lean ====
section
/-! SUPPORT. What the end of an event does (Machine/Events.lean): one lemma per table of the deck, and what absorbing the
work of an event leaves alone. -/

namespace Sys2Proof.Machine

variable (e : Env) (old : Deck) (w : Work)

/-! ## Boundaries -/

/-- What the end of an event makes of one boundary, its edition apart (R100, R101). -/
def settledBoundary (e : Env) (was : Boundary) (b : Nat) (x : Boundary) : Boundary :=
  let y := if boundaryMoved was x then { x with stateStamp := e.now } else x
  if (boundaryConfig e.ram b).isDoor && (boundaryMoved was x || was.openingMark != x.openingMark) then
    { y with drive := driveOf x, beacon := beaconOf x }
  else y

@[simp] theorem driveOf_stamp (x : Boundary) (t : Stamp) : driveOf { x with stateStamp := t } = driveOf x := rfl
@[simp] theorem beaconOf_stamp (x : Boundary) (t : Stamp) : beaconOf { x with stateStamp := t } = beaconOf x := rfl

/-- The work with boundaries, rotation classes and outputs set aside. -/
def withoutDoors (w : Work) : Work :=
  { w with boundaries := Vector.replicate 24 {}, classes := Vector.replicate 48 .slow,
           outputs := Vector.replicate 48 .none }

/-- The work with what the settling of boundaries writes set aside. -/
def outsideBoundaries (w : Work) : Work := withoutDoors (outsideZones w)

/-! What an equality of `outsideBoundaries` says of each field. -/

theorem lineA_of_doors {w w' : Work} (h : outsideBoundaries w' = outsideBoundaries w) : w'.lineA = w.lineA :=
  (congrArg (fun x : Work => x.lineA) h :)
theorem lineB_of_doors {w w' : Work} (h : outsideBoundaries w' = outsideBoundaries w) : w'.lineB = w.lineB :=
  (congrArg (fun x : Work => x.lineB) h :)
theorem stations_of_doors {w w' : Work} (h : outsideBoundaries w' = outsideBoundaries w) : w'.stations = w.stations :=
  (congrArg (fun x : Work => x.stations) h :)
theorem working_of_doors {w w' : Work} (h : outsideBoundaries w' = outsideBoundaries w) : w'.working = w.working :=
  (congrArg (fun x : Work => x.working) h :)
theorem ramps_of_doors {w w' : Work} (h : outsideBoundaries w' = outsideBoundaries w) : w'.ramps = w.ramps :=
  (congrArg (fun x : Work => x.ramps) h :)
theorem zoneOrders_of_doors {w w' : Work} (h : outsideBoundaries w' = outsideBoundaries w) : w'.zoneOrders = w.zoneOrders :=
  (congrArg (fun x : Work => x.zoneOrders) h :)
theorem fireNormal_of_doors {w w' : Work} (h : outsideBoundaries w' = outsideBoundaries w) : w'.fireNormal = w.fireNormal :=
  (congrArg (fun x : Work => x.fireNormal) h :)
theorem fireEmergency_of_doors {w w' : Work} (h : outsideBoundaries w' = outsideBoundaries w) : w'.fireEmergency = w.fireEmergency :=
  (congrArg (fun x : Work => x.fireEmergency) h :)
theorem catalogue_of_doors {w w' : Work} (h : outsideBoundaries w' = outsideBoundaries w) : w'.catalogue = w.catalogue :=
  (congrArg (fun x : Work => x.catalogue) h :)
theorem records_of_doors {w w' : Work} (h : outsideBoundaries w' = outsideBoundaries w) : w'.records = w.records :=
  (congrArg (fun x : Work => x.records) h :)
theorem zoneCalls_of_doors {w w' : Work} (h : outsideBoundaries w' = outsideBoundaries w) : w'.zoneCalls = w.zoneCalls :=
  (congrArg (fun x : Work => x.zoneCalls) h :)
theorem cells_of_doors {w w' : Work} (h : outsideBoundaries w' = outsideBoundaries w) : w'.cells = w.cells :=
  (congrArg (fun x : Work => x.cells) h :)
theorem races_of_doors {w w' : Work} (h : outsideBoundaries w' = outsideBoundaries w) : w'.races = w.races :=
  (congrArg (fun x : Work => x.races) h :)
theorem outbox_of_doors {w w' : Work} (h : outsideBoundaries w' = outsideBoundaries w) : w'.outbox = w.outbox :=
  (congrArg (fun x : Work => x.outbox) h :)
theorem playEnded_of_doors {w w' : Work} (h : outsideBoundaries w' = outsideBoundaries w) : w'.playEnded = w.playEnded :=
  (congrArg (fun x : Work => x.playEnded) h :)
theorem notices_of_doors {w w' : Work} (h : outsideBoundaries w' = outsideBoundaries w) : w'.notices = w.notices :=
  (congrArg (fun x : Work => x.notices) h :)

theorem outsideBoundaries_of_zones {w w' : Work} (h : outsideZones w' = outsideZones w) :
    outsideBoundaries w' = outsideBoundaries w := congrArg withoutDoors h

@[simp] theorem outsideBoundaries_boundaryReport (b : Nat) (st : BoundaryState) (d : Demand) :
    outsideBoundaries (boundaryReport e b st d w) = outsideBoundaries w :=
  outsideBoundaries_of_zones (outsideZones_boundaryReport e w b st d)

@[simp] theorem outsideBoundaries_modBoundary (b : Nat) (f : Boundary → Boundary) :
    outsideBoundaries (modBoundary b f w) = outsideBoundaries w := rfl

@[simp] theorem outsideBoundaries_setClass (a : Nat) (c : Rotation) :
    outsideBoundaries (setClass a c w) = outsideBoundaries w := rfl

@[simp] theorem outsideBoundaries_setOutput (a : Nat) (o : Output) :
    outsideBoundaries (setOutput a o w) = outsideBoundaries w := rfl

@[simp] theorem outsideBoundaries_settleBoundary (b : Nat) :
    outsideBoundaries (settleBoundary e old b w) = outsideBoundaries w := by
  unfold settleBoundary
  dsimp only
  split <;> split <;> simp

@[simp] theorem outsideBoundaries_settleBoundaries :
    outsideBoundaries (settleBoundaries e old w) = outsideBoundaries w :=
  each_keeps (p := outsideBoundaries) (fun _ _ _ => by simp) w

/-- The settling of one boundary leaves every other boundary alone. -/
theorem settleBoundary_boundaries_ne {b c : Nat} (h : b ≠ c) :
    tget (settleBoundary e old b w).boundaries c = tget w.boundaries c := by
  have hr : ∀ (st : BoundaryState) (d : Demand) (v : Work), (boundaryReport e b st d v).boundaries = v.boundaries :=
    fun st d v => (congrArg (fun x : Work => x.boundaries) (outsideZones_boundaryReport e v b st d) :)
  unfold settleBoundary
  dsimp only
  split <;> split <;> simp [h, hr]

/-- The settling of a boundary (R100, R101). -/
theorem settleBoundary_boundaries_self {b : Nat} (h : b < 24) :
    tget (settleBoundary e old b w).boundaries b = settledBoundary e (tget old.boundaries b) b (tget w.boundaries b) := by
  have hr : ∀ (st : BoundaryState) (d : Demand) (v : Work), (boundaryReport e b st d v).boundaries = v.boundaries :=
    fun st d v => (congrArg (fun x : Work => x.boundaries) (outsideZones_boundaryReport e v b st d) :)
  unfold settleBoundary settledBoundary
  dsimp only
  split <;> split <;> simp [h, hr]

/-- Every boundary is settled, each by itself. -/
theorem settleBoundaries_boundary {b : Nat} (h : b < 24) :
    tget (settleBoundaries e old w).boundaries b =
      settledBoundary e (tget old.boundaries b) b (tget w.boundaries b) := by
  have key : ∀ (l : List Nat) (v : Work), l.Nodup → 
      tget (each l (settleBoundary e old) v).boundaries b =
        if b ∈ l then settledBoundary e (tget old.boundaries b) b (tget v.boundaries b) else tget v.boundaries b := by
    intro l
    induction l with
    | nil => intro v _; simp
    | cons x rest ih =>
      intro v hn
      rw [List.nodup_cons] at hn
      rw [each_cons, ih _ hn.2]
      by_cases hx : x = b
      · subst hx
        simp [hn.1, settleBoundary_boundaries_self e old v h]
      · have hb : b ≠ x := fun y => hx y.symm
        simp [settleBoundary_boundaries_ne e old v hx, hb]
  have := key (List.range 24) w List.nodup_range
  simp only [List.mem_range, h, if_true] at this
  exact this

/-! ## The call unit's part -/

/-- The work with what the call unit and the boundary unit's sets write set aside. -/
def outsideRequests (w : Work) : Work :=
  { outsideCalls w with fireNormal := 0, fireEmergency := 0, races := 0 }

/-- The fire warning sets and the count of races set aside. -/
def withoutSets (w : Work) : Work := { w with fireNormal := 0, fireEmergency := 0, races := 0 }

/-! What an equality of `outsideRequests` says of each field. -/

theorem lineA_of_requests {w w' : Work} (h : outsideRequests w' = outsideRequests w) : w'.lineA = w.lineA :=
  (congrArg (fun x : Work => x.lineA) h :)
theorem lineB_of_requests {w w' : Work} (h : outsideRequests w' = outsideRequests w) : w'.lineB = w.lineB :=
  (congrArg (fun x : Work => x.lineB) h :)
theorem classes_of_requests {w w' : Work} (h : outsideRequests w' = outsideRequests w) : w'.classes = w.classes :=
  (congrArg (fun x : Work => x.classes) h :)
theorem stations_of_requests {w w' : Work} (h : outsideRequests w' = outsideRequests w) : w'.stations = w.stations :=
  (congrArg (fun x : Work => x.stations) h :)
theorem working_of_requests {w w' : Work} (h : outsideRequests w' = outsideRequests w) : w'.working = w.working :=
  (congrArg (fun x : Work => x.working) h :)
theorem ramps_of_requests {w w' : Work} (h : outsideRequests w' = outsideRequests w) : w'.ramps = w.ramps :=
  (congrArg (fun x : Work => x.ramps) h :)
theorem boundaries_of_requests {w w' : Work} (h : outsideRequests w' = outsideRequests w) : w'.boundaries = w.boundaries :=
  (congrArg (fun x : Work => x.boundaries) h :)
theorem zoneOrders_of_requests {w w' : Work} (h : outsideRequests w' = outsideRequests w) : w'.zoneOrders = w.zoneOrders :=
  (congrArg (fun x : Work => x.zoneOrders) h :)
theorem catalogue_of_requests {w w' : Work} (h : outsideRequests w' = outsideRequests w) : w'.catalogue = w.catalogue :=
  (congrArg (fun x : Work => x.catalogue) h :)
theorem zones_of_requests {w w' : Work} (h : outsideRequests w' = outsideRequests w) : w'.zones = w.zones :=
  (congrArg (fun x : Work => x.zones) h :)
theorem boundaryView_of_requests {w w' : Work} (h : outsideRequests w' = outsideRequests w) : w'.boundaryView = w.boundaryView :=
  (congrArg (fun x : Work => x.boundaryView) h :)
theorem rampView_of_requests {w w' : Work} (h : outsideRequests w' = outsideRequests w) : w'.rampView = w.rampView :=
  (congrArg (fun x : Work => x.rampView) h :)
theorem cells_of_requests {w w' : Work} (h : outsideRequests w' = outsideRequests w) : w'.cells = w.cells :=
  (congrArg (fun x : Work => x.cells) h :)

theorem outsideRequests_of_calls {w w' : Work} (h : outsideCalls w' = outsideCalls w) :
    outsideRequests w' = outsideRequests w := congrArg withoutSets h

@[simp] theorem outsideRequests_warningRequests : outsideRequests (warningRequests e old w) = outsideRequests w :=
  outsideRequests_of_calls (each_keeps (p := outsideCalls) (by intro x _ v; split <;> simp) w)

@[simp] theorem outsideRequests_fireRequests : outsideRequests (fireRequests e old w) = outsideRequests w := by
  unfold fireRequests
  exact (outsideRequests_of_calls (outsideCalls_fireHandover e _ _ _ _ _)).trans rfl

@[simp] theorem outsideRequests_races (n : Nat) : outsideRequests { w with races := n } = outsideRequests w := rfl

@[simp] theorem outsideRequests_callRequests : outsideRequests (callRequests e old w) = outsideRequests w := by
  have hr := outsideRequests_races w (w.races + 1)
  unfold callRequests
  dsimp only
  split
  · split
    · split
      · rw [outsideRequests_warningRequests, outsideRequests_fireRequests, hr]
      · rw [outsideRequests_fireRequests, outsideRequests_warningRequests, hr]
    · simp
  · simp

/-! ## The end of an event -/

/-- The work with everything that the end of an event writes set aside, editions and the two lines apart. -/
def outsideClose (w : Work) : Work :=
  { w with lineA := {}, lineB := {}, classes := Vector.replicate 48 .slow, outputs := Vector.replicate 48 .none,
           boundaries := Vector.replicate 24 {}, zoneOrders := Vector.replicate 32 {}, fireNormal := 0, fireEmergency := 0,
           records := Vector.replicate 32 {}, zoneCalls := Vector.replicate 16 {}, zones := Vector.replicate 16 {},
           boundaryView := Vector.replicate 24 {}, rampView := Vector.replicate 4 .unknown, races := 0, outbox := [],
           playEnded := [], notices := [] }

theorem outsideClose_of_boundaries {w w' : Work} (h : outsideBoundaries w' = outsideBoundaries w) :
    outsideClose w' = outsideClose w := by
  have := congrArg outsideClose h
  exact this

theorem outsideClose_of_requests {w w' : Work} (h : outsideRequests w' = outsideRequests w) :
    outsideClose w' = outsideClose w := by
  have := congrArg outsideClose h
  exact this

theorem outsideClose_of_calls {w w' : Work} (h : outsideCalls w' = outsideCalls w) :
    outsideClose w' = outsideClose w := by
  have := congrArg outsideClose h
  exact this

theorem outsideClose_of_zones {w w' : Work} (h : outsideZones w' = outsideZones w) :
    outsideClose w' = outsideClose w := by
  have := congrArg outsideClose h
  exact this

@[simp] theorem outsideClose_settleZoneOrder (k : Nat) : outsideClose (settleZoneOrder k w) = outsideClose w := by
  unfold settleZoneOrder
  dsimp only
  split <;> rfl

@[simp] theorem outsideClose_settleZoneOrders : outsideClose (settleZoneOrders w) = outsideClose w :=
  each_keeps (p := outsideClose) (by intros; simp) w

@[simp] theorem outsideClose_settleZoneCalls (z : Nat) : outsideClose (settleZoneCalls e old z w) = outsideClose w := by
  unfold settleZoneCalls
  dsimp only
  split
  · rfl
  · exact outsideClose_of_zones (outsideZones_callReport w _ _ _ _ _)

@[simp] theorem outsideClose_setClass (a : Nat) (c : Rotation) : outsideClose (setClass a c w) = outsideClose w := rfl
@[simp] theorem outsideClose_setOutput (a : Nat) (o : Output) : outsideClose (setOutput a o w) = outsideClose w := rfl
@[simp] theorem outsideClose_modLine (l : LineId) (f : Line → Line) : outsideClose (modLine l f w) = outsideClose w := by
  cases l <;> rfl

@[simp] theorem outsideClose_settleRamp (u : Nat) : outsideClose (settleRamp e old u w) = outsideClose w := by
  unfold settleRamp
  dsimp only
  split
  · split <;> simp
  · rfl

@[simp] theorem outsideClose_beginSlot (l : LineId) : outsideClose (beginSlot l w) = outsideClose w := by
  unfold beginSlot
  dsimp only
  split
  · split <;> simp
  · rfl

@[simp] theorem outsideClose_beginTest (l : LineId) : outsideClose (beginTest e l w) = outsideClose w := by
  unfold beginTest
  dsimp only
  split
  · split <;> simp
  · rfl

@[simp] theorem outsideClose_settleLine (l : LineId) : outsideClose (settleLine e l w) = outsideClose w := by
  simp [settleLine, countMembers]

/-- The work of an event once every unit has acted and before the editions move on. -/
def settledWork (e : Env) (old : Deck) (w : Work) : Work :=
  let w := settleBoundaries e old w
  let w := callRequests e old w
  let w := settleRecords e (settleZoneOrders w)
  let w := each (List.range 16) (settleZoneCalls e old) w
  let w := each (List.range 4) (settleRamp e old) w
  settleLine e .b (settleLine e .a w)

theorem closeEvent_eq : closeEvent e old w = rewriteSections {} old (settledWork e old w) := rfl

@[simp] theorem outsideClose_settledWork : outsideClose (settledWork e old w) = outsideClose w := by
  unfold settledWork
  dsimp only
  rw [outsideClose_settleLine, outsideClose_settleLine,
    each_keeps (p := outsideClose) (by intros; simp), each_keeps (p := outsideClose) (by intros; simp),
    outsideClose_of_calls (outsideCalls_settleRecords e _), outsideClose_settleZoneOrders,
    outsideClose_of_requests (outsideRequests_callRequests e old _),
    outsideClose_of_boundaries (outsideBoundaries_settleBoundaries e old _)]

theorem fields_of_outsideClose {w w' : Work} (h : outsideClose w' = outsideClose w) :
    w'.stations = w.stations ∧ w'.ramps = w.ramps ∧ w'.cells = w.cells ∧ w'.working = w.working ∧
      w'.catalogue = w.catalogue :=
  ⟨(congrArg (fun x : Work => x.stations) h :), (congrArg (fun x : Work => x.ramps) h :),
    (congrArg (fun x : Work => x.cells) h :), (congrArg (fun x : Work => x.working) h :),
    (congrArg (fun x : Work => x.catalogue) h :)⟩

@[simp] theorem settledWork_stations : (settledWork e old w).stations = w.stations :=
  (fields_of_outsideClose (outsideClose_settledWork e old w)).1
@[simp] theorem settledWork_ramps : (settledWork e old w).ramps = w.ramps :=
  (fields_of_outsideClose (outsideClose_settledWork e old w)).2.1
@[simp] theorem settledWork_cells : (settledWork e old w).cells = w.cells :=
  (fields_of_outsideClose (outsideClose_settledWork e old w)).2.2.1
@[simp] theorem settledWork_working : (settledWork e old w).working = w.working :=
  (fields_of_outsideClose (outsideClose_settledWork e old w)).2.2.2.1
@[simp] theorem settledWork_catalogue : (settledWork e old w).catalogue = w.catalogue :=
  (fields_of_outsideClose (outsideClose_settledWork e old w)).2.2.2.2

/-! Fields that the parts of the end of an event keep. -/

@[simp] theorem settleZoneOrder_boundaries (k : Nat) : (settleZoneOrder k w).boundaries = w.boundaries := by
  unfold settleZoneOrder
  dsimp only
  split <;> rfl

@[simp] theorem settleZoneOrder_lineA (k : Nat) : (settleZoneOrder k w).lineA = w.lineA := by
  unfold settleZoneOrder
  dsimp only
  split <;> rfl

@[simp] theorem settleZoneOrder_lineB (k : Nat) : (settleZoneOrder k w).lineB = w.lineB := by
  unfold settleZoneOrder
  dsimp only
  split <;> rfl

@[simp] theorem settleZoneCalls_boundaries (z : Nat) : (settleZoneCalls e old z w).boundaries = w.boundaries := by
  unfold settleZoneCalls
  dsimp only
  split <;> rfl

@[simp] theorem settleZoneCalls_lineA (z : Nat) : (settleZoneCalls e old z w).lineA = w.lineA := by
  unfold settleZoneCalls
  dsimp only
  split <;> rfl

@[simp] theorem settleZoneCalls_lineB (z : Nat) : (settleZoneCalls e old z w).lineB = w.lineB := by
  unfold settleZoneCalls
  dsimp only
  split <;> rfl

@[simp] theorem settleZoneCalls_outbox (z : Nat) : (settleZoneCalls e old z w).outbox = w.outbox := by
  unfold settleZoneCalls
  dsimp only
  split <;> rfl

@[simp] theorem settleRamp_boundaries (u : Nat) : (settleRamp e old u w).boundaries = w.boundaries := by
  unfold settleRamp
  dsimp only
  split
  · split <;> simp
  · rfl

@[simp] theorem settleRamp_lineA (u : Nat) : (settleRamp e old u w).lineA = w.lineA := by
  unfold settleRamp
  dsimp only
  split
  · split <;> simp
  · rfl

@[simp] theorem settleRamp_lineB (u : Nat) : (settleRamp e old u w).lineB = w.lineB := by
  unfold settleRamp
  dsimp only
  split
  · split <;> simp
  · rfl

@[simp] theorem settleRamp_outbox (u : Nat) : (settleRamp e old u w).outbox = w.outbox := by
  unfold settleRamp
  dsimp only
  split
  · split <;> simp
  · rfl

@[simp] theorem beginSlot_boundaries (l : LineId) : (beginSlot l w).boundaries = w.boundaries := by
  unfold beginSlot
  dsimp only
  split
  · split <;> simp
  · rfl

@[simp] theorem beginSlot_outbox (l : LineId) : (beginSlot l w).outbox = w.outbox := by
  unfold beginSlot
  dsimp only
  split
  · split <;> simp
  · rfl

@[simp] theorem beginTest_boundaries (l : LineId) : (beginTest e l w).boundaries = w.boundaries := by
  unfold beginTest
  dsimp only
  split
  · split <;> simp
  · rfl

@[simp] theorem beginTest_outbox (l : LineId) : (beginTest e l w).outbox = w.outbox := by
  unfold beginTest
  dsimp only
  split
  · split <;> simp
  · rfl

@[simp] theorem settleLine_boundaries (l : LineId) : (settleLine e l w).boundaries = w.boundaries := by
  simp [settleLine, countMembers]

@[simp] theorem settleLine_outbox (l : LineId) : (settleLine e l w).outbox = w.outbox := by
  simp [settleLine, countMembers]

theorem settleAllCalls_boundaries : (each (List.range 16) (settleZoneCalls e old) w).boundaries = w.boundaries :=
  each_keeps (p := fun x : Work => x.boundaries) (f := settleZoneCalls e old) (l := List.range 16) (fun z _ v => settleZoneCalls_boundaries e old v z) w

theorem settleAllCalls_lineA : (each (List.range 16) (settleZoneCalls e old) w).lineA = w.lineA :=
  each_keeps (p := fun x : Work => x.lineA) (f := settleZoneCalls e old) (l := List.range 16) (fun z _ v => settleZoneCalls_lineA e old v z) w

theorem settleAllCalls_lineB : (each (List.range 16) (settleZoneCalls e old) w).lineB = w.lineB :=
  each_keeps (p := fun x : Work => x.lineB) (f := settleZoneCalls e old) (l := List.range 16) (fun z _ v => settleZoneCalls_lineB e old v z) w

theorem settleAllCalls_outbox : (each (List.range 16) (settleZoneCalls e old) w).outbox = w.outbox :=
  each_keeps (p := fun x : Work => x.outbox) (f := settleZoneCalls e old) (l := List.range 16) (fun z _ v => settleZoneCalls_outbox e old v z) w

theorem settleAllRamps_boundaries : (each (List.range 4) (settleRamp e old) w).boundaries = w.boundaries :=
  each_keeps (p := fun x : Work => x.boundaries) (f := settleRamp e old) (l := List.range 4) (fun z _ v => settleRamp_boundaries e old v z) w

theorem settleAllRamps_lineA : (each (List.range 4) (settleRamp e old) w).lineA = w.lineA :=
  each_keeps (p := fun x : Work => x.lineA) (f := settleRamp e old) (l := List.range 4) (fun z _ v => settleRamp_lineA e old v z) w

theorem settleAllRamps_lineB : (each (List.range 4) (settleRamp e old) w).lineB = w.lineB :=
  each_keeps (p := fun x : Work => x.lineB) (f := settleRamp e old) (l := List.range 4) (fun z _ v => settleRamp_lineB e old v z) w

theorem settleAllRamps_outbox : (each (List.range 4) (settleRamp e old) w).outbox = w.outbox :=
  each_keeps (p := fun x : Work => x.outbox) (f := settleRamp e old) (l := List.range 4) (fun z _ v => settleRamp_outbox e old v z) w

theorem settleZoneOrders_boundaries : (settleZoneOrders w).boundaries = w.boundaries := by
  unfold settleZoneOrders
  exact each_keeps (p := fun x : Work => x.boundaries) (f := settleZoneOrder) (l := List.range 32) (fun k _ v => settleZoneOrder_boundaries v k) w

theorem settleZoneOrders_lineA : (settleZoneOrders w).lineA = w.lineA := by
  unfold settleZoneOrders
  exact each_keeps (p := fun x : Work => x.lineA) (f := settleZoneOrder) (l := List.range 32) (fun k _ v => settleZoneOrder_lineA v k) w

theorem settleZoneOrders_lineB : (settleZoneOrders w).lineB = w.lineB := by
  unfold settleZoneOrders
  exact each_keeps (p := fun x : Work => x.lineB) (f := settleZoneOrder) (l := List.range 32) (fun k _ v => settleZoneOrder_lineB v k) w

theorem settleRecords_boundaries : (settleRecords e w).boundaries = w.boundaries :=
  boundaries_of_calls (outsideCalls_settleRecords e w)

theorem callRequests_boundaries : (callRequests e old w).boundaries = w.boundaries :=
  boundaries_of_requests (outsideRequests_callRequests e old w)

theorem settleRecords_lineA : (settleRecords e w).lineA = w.lineA :=
  lineA_of_calls (outsideCalls_settleRecords e w)

theorem callRequests_lineA : (callRequests e old w).lineA = w.lineA :=
  lineA_of_requests (outsideRequests_callRequests e old w)

theorem settleRecords_lineB : (settleRecords e w).lineB = w.lineB :=
  lineB_of_calls (outsideCalls_settleRecords e w)

theorem callRequests_lineB : (callRequests e old w).lineB = w.lineB :=
  lineB_of_requests (outsideRequests_callRequests e old w)

theorem settleBoundaries_lineA : (settleBoundaries e old w).lineA = w.lineA :=
  lineA_of_doors (outsideBoundaries_settleBoundaries e old w)

theorem settleBoundaries_lineB : (settleBoundaries e old w).lineB = w.lineB :=
  lineB_of_doors (outsideBoundaries_settleBoundaries e old w)

theorem settleBoundaries_outbox : (settleBoundaries e old w).outbox = w.outbox :=
  outbox_of_doors (outsideBoundaries_settleBoundaries e old w)

theorem rewriteSections_outbox (force : Forced) : (rewriteSections force old w).outbox = w.outbox := rfl

theorem rewriteSections_boundaries (force : Forced) : (rewriteSections force old w).boundaries =
    Vector.zipWith (rewriteBoundary force.sections) old.boundaries w.boundaries := rfl

theorem rewriteSections_lineOf (force : Forced) (l : LineId) : lineOf (rewriteSections force old w).toDeck l =
    rewriteLine force.lines (lineOf old l) (lineOf w.toDeck l) := by
  cases l <;> rfl

/-! ## What an event leaves, table by table -/

/-- Stations: the end of an event moves editions only (R50). -/
theorem closeEvent_stations : (closeEvent e old w).stations =
    Vector.zipWith (rewriteStation false) old.stations w.stations := by
  rw [closeEvent_eq, ← settledWork_stations e old w]; rfl

/-- Ramps: the end of an event moves editions only (R70). -/
theorem closeEvent_ramps : (closeEvent e old w).ramps = Vector.zipWith (rewriteRamp false) old.ramps w.ramps := by
  rw [closeEvent_eq, ← settledWork_ramps e old w]; rfl

/-- Attention cells: the end of an event moves editions only (R145). -/
theorem closeEvent_cells : (closeEvent e old w).cells = Vector.zipWith (rewriteCell false) old.cells w.cells := by
  rw [closeEvent_eq, ← settledWork_cells e old w]; rfl

@[simp] theorem closeEvent_working : (closeEvent e old w).working = w.working := by
  rw [closeEvent_eq, ← settledWork_working e old w]; rfl

@[simp] theorem closeEvent_catalogue : (closeEvent e old w).catalogue = w.catalogue := by
  rw [closeEvent_eq, ← settledWork_catalogue e old w]; rfl

/-- Boundaries: each is settled by itself, and its edition moves on when a field changes (R100, R101). -/
theorem closeEvent_boundary {b : Nat} (h : b < 24) : tget (closeEvent e old w).boundaries b =
    rewriteBoundary false (tget old.boundaries b)
      (settledBoundary e (tget old.boundaries b) b (tget w.boundaries b)) := by
  have hb : (settledWork e old w).boundaries = (settleBoundaries e old w).boundaries := by
    unfold settledWork
    dsimp only
    rw [settleLine_boundaries, settleLine_boundaries, settleAllRamps_boundaries, settleAllCalls_boundaries,
      settleRecords_boundaries, settleZoneOrders_boundaries, callRequests_boundaries]
  rw [closeEvent_eq, rewriteSections_boundaries, tget_zipWith _ _ _ h, hb, settleBoundaries_boundary e old w h]

/-! ## Lines -/

/-- What a line keeps through the end of an event: all but its edition, the exchange it begins, and its members. -/
def lineKept (x : Line) : Line :=
  { x with edition := 0, activity := .quiet, switched := [], tests := [], fastMembers := 0, slowMembers := 0 }

theorem beginSlot_lineKept (l k : LineId) : lineKept (lineOf (beginSlot l w).toDeck k) = lineKept (lineOf w.toDeck k) := by
  unfold beginSlot
  dsimp only
  split
  · split
    · rw [modLine_lineOf]; split <;> rfl
    · rfl
  · rfl

theorem beginTest_lineKept (l k : LineId) :
    lineKept (lineOf (beginTest e l w).toDeck k) = lineKept (lineOf w.toDeck k) := by
  unfold beginTest
  dsimp only
  split
  · split
    · rw [modLine_lineOf]; split <;> rfl
    · rfl
  · rfl

theorem settleLine_lineKept (l k : LineId) :
    lineKept (lineOf (settleLine e l w).toDeck k) = lineKept (lineOf w.toDeck k) := by
  unfold settleLine
  rw [beginTest_lineKept, beginSlot_lineKept]
  unfold countMembers
  dsimp only
  rw [modLine_lineOf]
  split <;> rfl

/-- A line with work in hand goes on with it, and a line's lists stay. -/
theorem settleLine_busy (l k : LineId) (h : (lineOf w.toDeck k).activity ≠ .quiet) :
    (lineOf (settleLine e l w).toDeck k).activity = (lineOf w.toDeck k).activity ∧
      (lineOf (settleLine e l w).toDeck k).switched = (lineOf w.toDeck k).switched ∧
      (lineOf (settleLine e l w).toDeck k).tests = (lineOf w.toDeck k).tests := by
  have hm : ∀ j : LineId, (lineOf (countMembers l w).toDeck j).activity = (lineOf w.toDeck j).activity ∧
      (lineOf (countMembers l w).toDeck j).switched = (lineOf w.toDeck j).switched ∧
      (lineOf (countMembers l w).toDeck j).tests = (lineOf w.toDeck j).tests := by
    intro j
    unfold countMembers
    dsimp only
    rw [modLine_lineOf]
    split <;> simp
  have hs : ∀ v : Work, (lineOf v.toDeck k).activity ≠ .quiet → lineOf (beginSlot l v).toDeck k = lineOf v.toDeck k := by
    intro v hv
    unfold beginSlot
    dsimp only
    split
    · next hq =>
      split
      · rw [modLine_lineOf]
        split
        · next hlk => subst hlk; exact absurd hq.2 hv
        · rfl
      · rfl
    · rfl
  have ht : ∀ v : Work, (lineOf v.toDeck k).activity ≠ .quiet → lineOf (beginTest e l v).toDeck k = lineOf v.toDeck k := by
    intro v hv
    unfold beginTest
    dsimp only
    split
    · next hq =>
      split
      · rw [modLine_lineOf]
        split
        · next hlk => subst hlk; exact absurd hq.2.1 hv
        · rfl
      · rfl
    · rfl
  have h1 : (lineOf (countMembers l w).toDeck k).activity ≠ .quiet := by rw [(hm k).1]; exact h
  have h2 := hs _ h1
  have h3 := ht (beginSlot l (countMembers l w)) (by rw [h2]; exact h1)
  unfold settleLine
  rw [h3, h2]
  exact hm k

/-- What comes before the lines at the end of an event leaves them alone. -/
theorem settledWork_lines : ∃ v : Work, v.lineA = w.lineA ∧ v.lineB = w.lineB ∧
    settledWork e old w = settleLine e .b (settleLine e .a v) := by
  unfold settledWork
  dsimp only
  refine ⟨_, ?_, ?_, rfl⟩
  · rw [settleAllRamps_lineA, settleAllCalls_lineA, settleRecords_lineA, settleZoneOrders_lineA, callRequests_lineA,
      settleBoundaries_lineA]
  · rw [settleAllRamps_lineB, settleAllCalls_lineB, settleRecords_lineB, settleZoneOrders_lineB, callRequests_lineB,
      settleBoundaries_lineB]

theorem rewriteLine_kept (force : Bool) (x y : Line) : lineKept (rewriteLine force x y) = lineKept y := by
  unfold rewriteLine; split <;> rfl

theorem rewriteLine_work (force : Bool) (x y : Line) : (rewriteLine force x y).activity = y.activity ∧
    (rewriteLine force x y).switched = y.switched ∧ (rewriteLine force x y).tests = y.tests := by
  unfold rewriteLine; split <;> simp

/-- Lines: the end of an event changes the members, an exchange begun, and the edition; nothing else (R30, R31, R36). -/
theorem closeEvent_lineKept (l : LineId) :
    lineKept (lineOf (closeEvent e old w).toDeck l) = lineKept (lineOf w.toDeck l) := by
  obtain ⟨v, ha, hb, hv⟩ := settledWork_lines e old w
  rw [closeEvent_eq, rewriteSections_lineOf, rewriteLine_kept, hv, settleLine_lineKept, settleLine_lineKept]
  cases l
  · exact congrArg lineKept ha
  · exact congrArg lineKept hb

/-- A line with work in hand after the units have acted goes on with it. -/
theorem closeEvent_busy (l : LineId) (h : (lineOf w.toDeck l).activity ≠ .quiet) :
    (lineOf (closeEvent e old w).toDeck l).activity = (lineOf w.toDeck l).activity ∧
      (lineOf (closeEvent e old w).toDeck l).switched = (lineOf w.toDeck l).switched ∧
      (lineOf (closeEvent e old w).toDeck l).tests = (lineOf w.toDeck l).tests := by
  obtain ⟨v, ha, hb, hv⟩ := settledWork_lines e old w
  have hl : lineOf v.toDeck l = lineOf w.toDeck l := by
    cases l
    · exact ha
    · exact hb
  have h1 := settleLine_busy e v .a l (by rw [hl]; exact h)
  have h2 := settleLine_busy e (settleLine e .a v) .b l (by rw [h1.1, hl]; exact h)
  rw [closeEvent_eq, rewriteSections_lineOf, hv, (rewriteLine_work _ _ _).1, (rewriteLine_work _ _ _).2.1,
    (rewriteLine_work _ _ _).2.2, h2.1, h2.2.1, h2.2.2, h1.1, h1.2.1, h1.2.2, hl]
  exact ⟨rfl, rfl, rfl⟩

/-! ## Completion reports -/

theorem warningRequests_outbox : (warningRequests e old w).outbox = w.outbox := by
  refine each_keeps (p := fun x : Work => x.outbox) ?_ w
  intro u _ v
  show (if _ then startWarning e u v else endWarning e u v).outbox = v.outbox
  split
  · unfold startWarning
    dsimp only
    split
    · rfl
    · exact Eq.trans (each_keeps (p := fun x : Work => x.outbox) (by intros; simp) _) (by simp)
  · unfold endWarning
    dsimp only
    split <;> simp

theorem fireRequests_outbox : (fireRequests e old w).outbox = w.outbox := by
  simp [fireRequests]

theorem callRequests_outbox : (callRequests e old w).outbox = w.outbox := by
  unfold callRequests
  dsimp only
  split
  · split
    · split
      · rw [warningRequests_outbox, fireRequests_outbox]
      · rw [fireRequests_outbox, warningRequests_outbox]
    · rw [fireRequests_outbox]
  · rw [warningRequests_outbox]

theorem settleZoneOrders_outbox : ∃ l, (settleZoneOrders w).outbox = w.outbox ++ l := by
  refine each_induct (P := fun x => ∃ l, x.outbox = w.outbox ++ l) ?_ ⟨[], by simp⟩
  rintro k _ x ⟨l, hl⟩
  unfold settleZoneOrder
  dsimp only
  split
  · exact ⟨l ++ [_], by simp only [complete_outbox, modZoneOrder_outbox, hl]; rw [List.append_assoc]⟩
  · exact ⟨l, hl⟩

theorem settleRecords_outbox : ∃ l, (settleRecords e w).outbox = w.outbox ++ l := by
  refine each_induct (P := fun x => ∃ l, x.outbox = w.outbox ++ l) ?_ ⟨[], by simp⟩
  rintro k _ x ⟨l, hl⟩
  unfold settleRecord
  dsimp only
  split
  · exact ⟨l ++ [_], by simp only [endBridge, complete_outbox, outbox_endRecord, hl]; rw [List.append_assoc]⟩
  · exact ⟨l, hl⟩

/-- The reports that the units made stand at the head of the outbox of the event. -/
theorem closeEvent_outbox : ∃ l, (closeEvent e old w).outbox = w.outbox ++ l := by
  obtain ⟨l1, h1⟩ := settleZoneOrders_outbox (callRequests e old (settleBoundaries e old w))
  obtain ⟨l2, h2⟩ := settleRecords_outbox e (settleZoneOrders (callRequests e old (settleBoundaries e old w)))
  refine ⟨l1 ++ l2, ?_⟩
  rw [closeEvent_eq, rewriteSections_outbox]
  unfold settledWork
  dsimp only
  rw [settleLine_outbox, settleLine_outbox, settleAllRamps_outbox, settleAllCalls_outbox, h2, h1, callRequests_outbox,
    settleBoundaries_outbox, List.append_assoc]

end Sys2Proof.Machine
end

