-- ==== Sys2Proof/Laws/Machine.lean ====
section
/-! SUPPORT. The machine around an event: refreshing the summary and the pins, absorbing the work of an event, completing an
order, and taking one. -/

namespace Sys2Proof.Machine

/-! ## Refresh (R153, R163, R169) -/

@[simp] theorem refresh_toDeck (s : State) : (refresh s).toDeck = s.toDeck := by unfold refresh; split <;> rfl
@[simp] theorem refresh_ram (s : State) : (refresh s).ram = s.ram := by unfold refresh; split <;> rfl
@[simp] theorem refresh_hands (s : State) : (refresh s).hands = s.hands := by unfold refresh; split <;> rfl
@[simp] theorem refresh_arrivals (s : State) : (refresh s).arrivals = s.arrivals := by unfold refresh; split <;> rfl
@[simp] theorem refresh_doneCount (s : State) : (refresh s).doneCount = s.doneCount := by unfold refresh; split <;> rfl
@[simp] theorem refresh_orderDone (s : State) : (refresh s).orderDone = s.orderDone := by unfold refresh; split <;> rfl
@[simp] theorem refresh_statusEdited (s : State) : (refresh s).statusEdited = s.statusEdited := by
  unfold refresh; split <;> rfl
@[simp] theorem refresh_hostSide (s : State) : (refresh s).hostSide = s.hostSide := by unfold refresh; split <;> rfl
@[simp] theorem refresh_serviceSide (s : State) : (refresh s).serviceSide = s.serviceSide := by
  unfold refresh; split <;> rfl
@[simp] theorem refresh_power (s : State) : (refresh s).power = s.power := by unfold refresh; split <;> rfl
@[simp] theorem refresh_pending (s : State) : (refresh s).pending = s.pending := by unfold refresh; split <;> rfl
@[simp] theorem refresh_partState (s : State) : (refresh s).partState = s.partState := by unfold refresh; split <;> rfl

/-- A refreshed state has a summary that agrees with its cells. -/
theorem refresh_summaryAgrees (s : State) : (refresh s).summaryAgrees := by
  intro h
  rw [refresh_power] at h
  simp only [refresh, h, if_true]
  exact ⟨rfl, rfl, rfl⟩

/-- A refreshed state has pins that agree with its flags, enables and units. -/
theorem refresh_pinsAgree (s : State) : (refresh s).pinsAgree := by
  intro h
  rw [refresh_power] at h
  simp only [refresh, h, if_true]
  exact ⟨rfl, rfl, rfl⟩

/-- A state whose summary and pins agree is left as it is. -/
theorem refresh_of_agrees {s : State} (h1 : s.summaryAgrees) (h2 : s.pinsAgree) : refresh s = s := by
  unfold refresh
  split
  · next h =>
    obtain ⟨a1, a2, a3⟩ := h1 h
    obtain ⟨b1, b2, b3⟩ := h2 h
    have e1 : withSummary s = s := by
      unfold withSummary
      rw [← a1, ← a2, ← a3]
    rw [e1]
    unfold withPins
    rw [← b1, ← b2, ← b3]
  · rfl

/-! ## Completion (R175) -/

@[simp] theorem completeSlot_toDeck (c : Completion) (s : State) : (completeSlot c s).toDeck = s.toDeck := by
  unfold completeSlot; split <;> [rfl; (split <;> rfl)]
@[simp] theorem completeSlot_hostSide (c : Completion) (s : State) : (completeSlot c s).hostSide = s.hostSide := by
  unfold completeSlot; split <;> [rfl; (split <;> rfl)]
@[simp] theorem completeSlot_serviceSide (c : Completion) (s : State) :
    (completeSlot c s).serviceSide = s.serviceSide := by
  unfold completeSlot; split <;> [rfl; (split <;> rfl)]
@[simp] theorem completeSlot_arrivals (c : Completion) (s : State) : (completeSlot c s).arrivals = s.arrivals := by
  unfold completeSlot; split <;> [rfl; (split <;> rfl)]
@[simp] theorem completeSlot_statusEdited (c : Completion) (s : State) :
    (completeSlot c s).statusEdited = s.statusEdited := by
  unfold completeSlot; split <;> [rfl; (split <;> rfl)]
@[simp] theorem completeSlot_power (c : Completion) (s : State) : (completeSlot c s).power = s.power := by
  unfold completeSlot; split <;> [rfl; (split <;> rfl)]
@[simp] theorem completeSlot_deckClock (c : Completion) (s : State) : (completeSlot c s).deckClock = s.deckClock := by
  unfold completeSlot; split <;> [rfl; (split <;> rfl)]

/-- A completion changes no hand but its slot's. -/
theorem completeSlot_hands_ne (c : Completion) (s : State) {k : Nat} (h : k ≠ c.slot) :
    tget (completeSlot c s).hands k = tget s.hands k := by
  unfold completeSlot
  split
  · rfl
  · split <;> simp [Ne.symm h]

/-- A hand after a completion: as before, or, when it was TAKEN, EMPTY or DONE. -/
theorem completeSlot_hands (c : Completion) (s : State) (k : Nat) :
    tget (completeSlot c s).hands k = tget s.hands k ∨
      (tget s.hands k = .taken ∧
        (tget (completeSlot c s).hands k = .empty ∨ tget (completeSlot c s).hands k = .done)) := by
  by_cases hk : k = c.slot
  · subst hk
    by_cases hlt : c.slot < 32
    · unfold completeSlot
      split
      · exact .inl rfl
      · next h =>
        have h' : tget s.hands c.slot = .taken := by simpa using h
        split
        · exact .inr ⟨h', .inl (by simp [hlt])⟩
        · exact .inr ⟨h', .inr (by simp [hlt])⟩
    · left
      rw [tget_of_ge _ (by omega), tget_of_ge _ (by omega)]
  · exact .inl (completeSlot_hands_ne c s hk)

theorem detailOf_length (l : List Byte) : (detailOf l).length = 16 := by
  simp [detailOf]

/-- Only a TAKEN slot's result bytes are written. -/
theorem completeSlot_ram_out (c : Completion) (s : State) {a : Nat}
    (h : tget s.hands c.slot = .taken → ¬ inResult c.slot a) :
    memRead (completeSlot c s).ram a = memRead s.ram a := by
  unfold completeSlot
  split
  · rfl
  · next ht =>
    split
    · rfl
    · have ht' : tget s.hands c.slot = .taken := by simpa using ht
      have hn := h ht'
      unfold inResult at hn
      dsimp only
      rw [memRead_memWriteBytes_out _ _ (by simp [stampBytes]; omega),
        memRead_memWriteBytes_out _ _ (by rw [detailOf_length]; omega), memRead_memWrite_ne _ _ (by omega)]

theorem wf_completeSlot (c : Completion) {s : State} (h : Memory.wf s.ram = true) :
    Memory.wf (completeSlot c s).ram = true := by
  unfold completeSlot
  split
  · exact h
  · split
    · exact h
    · exact wf_memWriteBytes (wf_memWriteBytes (wf_memWrite h _ _) _ _) _ _

/-- The result bytes of two slots do not meet, nor those of a slot and another slot's other bytes. -/
theorem inResult_disjoint {j k a : Nat} (h : j ≠ k) (hj : slotBase j ≤ a ∧ a < slotBase j + 64) : ¬ inResult k a := by
  unfold inResult
  unfold slotBase at *
  omega

/-- What a completion leaves in its slot (R175). -/
theorem completeSlot_self {c : Completion} {s : State} (hw : Memory.wf s.ram = true) (hs : c.slot < 32)
    (ht : tget s.hands c.slot = .taken) :
    if c.result = .ok ∧ slotQuiet s.ram c.slot = true then
      tget (completeSlot c s).hands c.slot = .empty ∧ (completeSlot c s).ram = s.ram
    else
      tget (completeSlot c s).hands c.slot = .done ∧ (completeSlot c s).orderDone = true ∧
        memRead (completeSlot c s).ram (slotBase c.slot + 7) = byteOf c.result.code ∧
        (∀ i < 16, memRead (completeSlot c s).ram (slotBase c.slot + 32 + i) = (detailOf c.detail).getD i 0) ∧
        ∀ i < 4, memRead (completeSlot c s).ram (slotBase c.slot + 52 + i) = (stampBytes s.deckClock).getD i 0 := by
  unfold completeSlot
  simp only [ht, ne_eq, not_true_eq_false, if_false]
  split
  · exact ⟨by simp [hs], rfl⟩
  · have hl : (stampBytes s.deckClock).length = 4 := rfl
    have hd := detailOf_length c.detail
    refine ⟨by simp [hs], rfl, ?_, ?_, ?_⟩
    · dsimp only
      rw [memRead_memWriteBytes_out _ _ (by omega), memRead_memWriteBytes_out _ _ (by omega),
        memRead_memWrite_wf hw, if_pos rfl]
    · intro i hi
      dsimp only
      rw [memRead_memWriteBytes_out _ _ (by omega)]
      exact memRead_memWriteBytes_in (wf_memWrite hw _ _) _ _ _ (by omega)
    · intro i hi
      exact memRead_memWriteBytes_in (wf_memWriteBytes (wf_memWrite hw _ _) _ _) _ _ _ (by omega)

/-! ## The completions of an event -/

@[simp] theorem completeAll_nil (s : State) : completeAll [] s = s := rfl
@[simp] theorem completeAll_cons (c : Completion) (l : List Completion) (s : State) :
    completeAll (c :: l) s = completeAll l (completeSlot c s) := rfl

/-- A projection that a completion keeps is kept by the completions of an event. -/
theorem completeAll_keeps {β : Type} {p : State → β} (h : ∀ c s, p (completeSlot c s) = p s) (l : List Completion)
    (s : State) : p (completeAll l s) = p s := by
  induction l generalizing s with
  | nil => rfl
  | cons c rest ih => rw [completeAll_cons, ih, h]

@[simp] theorem completeAll_toDeck (l : List Completion) (s : State) : (completeAll l s).toDeck = s.toDeck :=
  completeAll_keeps (p := fun s => s.toDeck) completeSlot_toDeck l s
@[simp] theorem completeAll_hostSide (l : List Completion) (s : State) : (completeAll l s).hostSide = s.hostSide :=
  completeAll_keeps completeSlot_hostSide l s
@[simp] theorem completeAll_serviceSide (l : List Completion) (s : State) :
    (completeAll l s).serviceSide = s.serviceSide :=
  completeAll_keeps completeSlot_serviceSide l s
@[simp] theorem completeAll_arrivals (l : List Completion) (s : State) : (completeAll l s).arrivals = s.arrivals :=
  completeAll_keeps (p := fun s => s.arrivals) completeSlot_arrivals l s
@[simp] theorem completeAll_statusEdited (l : List Completion) (s : State) :
    (completeAll l s).statusEdited = s.statusEdited :=
  completeAll_keeps (p := fun s => s.statusEdited) completeSlot_statusEdited l s
@[simp] theorem completeAll_power (l : List Completion) (s : State) : (completeAll l s).power = s.power :=
  completeAll_keeps (p := fun s => s.power) completeSlot_power l s
@[simp] theorem completeAll_deckClock (l : List Completion) (s : State) : (completeAll l s).deckClock = s.deckClock :=
  completeAll_keeps (p := fun s => s.deckClock) completeSlot_deckClock l s

theorem wf_completeAll (l : List Completion) {s : State} (h : Memory.wf s.ram = true) :
    Memory.wf (completeAll l s).ram = true := by
  induction l generalizing s with
  | nil => exact h
  | cons c rest ih => exact ih (wf_completeSlot c h)

/-- A hand after the completions of an event: as before, or, when it was TAKEN, EMPTY or DONE. -/
theorem completeAll_hands (l : List Completion) (s : State) (k : Nat) :
    tget (completeAll l s).hands k = tget s.hands k ∨
      (tget s.hands k = .taken ∧ (tget (completeAll l s).hands k = .empty ∨ tget (completeAll l s).hands k = .done)) := by
  induction l generalizing s with
  | nil => exact .inl rfl
  | cons c rest ih =>
    rw [completeAll_cons]
    rcases ih (completeSlot c s) with h | ⟨ht, h⟩
    · rw [h]; exact completeSlot_hands c s k
    · rcases completeSlot_hands c s k with h2 | ⟨_, h2⟩
      · rw [h2] at ht; exact .inr ⟨ht, h⟩
      · rcases h2 with h2 | h2 <;> rw [h2] at ht <;> cases ht

/-- A hand that is not TAKEN stays through the completions of an event. -/
theorem completeAll_hands_kept (l : List Completion) {s : State} {k : Nat} (h : tget s.hands k ≠ .taken) :
    tget (completeAll l s).hands k = tget s.hands k := by
  rcases completeAll_hands l s k with h2 | ⟨ht, _⟩
  · exact h2
  · exact absurd ht h

/-- The completions of an event write no byte but the result bytes of slots that were TAKEN. -/
theorem completeAll_ram_out {l : List Completion} {s : State} {a : Nat}
    (h : ∀ k, tget s.hands k = .taken → ¬ inResult k a) : memRead (completeAll l s).ram a = memRead s.ram a := by
  induction l generalizing s with
  | nil => rfl
  | cons c rest ih =>
    rw [completeAll_cons, ih ?_,
      completeSlot_ram_out c s (h c.slot)]
    intro k hk
    rcases completeSlot_hands c s k with h2 | ⟨ht, _⟩
    · rw [h2] at hk; exact h k hk
    · exact h k ht

/-- The completions of an event leave alone the body of a slot that was not TAKEN. -/
theorem completeAll_slot_kept {l : List Completion} {s : State} {k a : Nat}
    (hk : tget s.hands k ≠ .taken) (ha : slotBase k ≤ a ∧ a < slotBase k + 64) :
    memRead (completeAll l s).ram a = memRead s.ram a := by
  refine completeAll_ram_out ?_
  intro j hj
  have hne : k ≠ j := by rintro rfl; exact hk hj
  exact inResult_disjoint hne ha

/-- ORDER DONE is not cleared by completions. -/
theorem completeAll_orderDone (l : List Completion) {s : State} (h : s.orderDone = true) :
    (completeAll l s).orderDone = true := by
  induction l generalizing s with
  | nil => exact h
  | cons c rest ih =>
    have hc : (completeSlot c s).orderDone = true := by
      unfold completeSlot
      split
      · exact h
      · split
        · exact h
        · rfl
    exact ih hc

/-- The first report for a TAKEN slot completes it (R175). -/
theorem completeAll_completed {l r : List Completion} {c : Completion} {s : State} (hw : Memory.wf s.ram = true)
    (hs : c.slot < 32) (ht : tget s.hands c.slot = .taken)
    (hl : ∀ d ∈ l, d.slot ≠ c.slot) :
    if c.result = .ok ∧ slotQuiet s.ram c.slot = true then
      tget (completeAll (l ++ c :: r) s).hands c.slot = .empty
    else
      tget (completeAll (l ++ c :: r) s).hands c.slot = .done ∧ (completeAll (l ++ c :: r) s).orderDone = true ∧
        memRead (completeAll (l ++ c :: r) s).ram (slotBase c.slot + 7) = byteOf c.result.code ∧
        (∀ i < 16, memRead (completeAll (l ++ c :: r) s).ram (slotBase c.slot + 32 + i) = (detailOf c.detail).getD i 0) ∧
        ∀ i < 4, memRead (completeAll (l ++ c :: r) s).ram (slotBase c.slot + 52 + i) =
          (stampBytes s.deckClock).getD i 0 := by
  induction l generalizing s with
  | nil =>
    have hself := completeSlot_self hw hs ht
    rw [List.nil_append, completeAll_cons]
    split
    · next hq =>
      rw [if_pos hq] at hself
      rw [completeAll_hands_kept _ (by rw [hself.1]; decide)]
      exact hself.1
    · next hq =>
      rw [if_neg hq] at hself
      have hk : tget (completeSlot c s).hands c.slot ≠ .taken := by rw [hself.1]; decide
      refine ⟨?_, completeAll_orderDone _ hself.2.1, ?_, ?_, ?_⟩
      · rw [completeAll_hands_kept _ hk]; exact hself.1
      · rw [completeAll_slot_kept hk (by omega)]; exact hself.2.2.1
      · intro i hi
        rw [completeAll_slot_kept hk (by omega)]; exact hself.2.2.2.1 i hi
      · intro i hi
        rw [completeAll_slot_kept hk (by omega)]; exact hself.2.2.2.2 i hi
  | cons d rest ih =>
    have hne : c.slot ≠ d.slot := fun h => hl d List.mem_cons_self h.symm
    have hq : slotQuiet (completeSlot d s).ram c.slot = slotQuiet s.ram c.slot := by
      unfold slotQuiet
      rw [completeSlot_ram_out d s (fun _ => inResult_disjoint hne (by omega))]
    have := ih (s := completeSlot d s) (wf_completeSlot d hw)
      (by rw [completeSlot_hands_ne d s hne]; exact ht)
      (fun x hx => hl x (List.mem_cons_of_mem _ hx))
    rw [hq, completeSlot_deckClock] at this
    exact this

/-! ## One event over the machine -/

/-- The state before the units' work of an event is absorbed: its completions are still to be written. -/
def withUnits (w : Work) (s : State) : State :=
  { s with toDeck := w.toDeck, statusEdited := s.statusEdited || editions w.toDeck != editions s.toDeck }

theorem absorb_eq (w : Work) (s : State) : absorb w s = completeAll w.outbox (withUnits w s) := rfl

@[simp] theorem absorb_toDeck (w : Work) (s : State) : (absorb w s).toDeck = w.toDeck := by
  rw [absorb_eq, completeAll_toDeck]; rfl
@[simp] theorem absorb_hostSide (w : Work) (s : State) : (absorb w s).hostSide = s.hostSide := by
  rw [absorb_eq, completeAll_hostSide]; rfl
@[simp] theorem absorb_serviceSide (w : Work) (s : State) : (absorb w s).serviceSide = s.serviceSide := by
  rw [absorb_eq, completeAll_serviceSide]; rfl
@[simp] theorem absorb_arrivals (w : Work) (s : State) : (absorb w s).arrivals = s.arrivals := by
  rw [absorb_eq, completeAll_arrivals]; rfl
@[simp] theorem absorb_power (w : Work) (s : State) : (absorb w s).power = s.power := by
  rw [absorb_eq, completeAll_power]; rfl

variable (f : Env → Work → Work) (s : State)

/-- The deck after an event is what the end of the event leaves. -/
@[simp] theorem runUnits_toDeck : (runUnits f s).toDeck = (closeEvent s.env s.toDeck (f s.env s.work)).toDeck := by
  simp [runUnits]
@[simp] theorem runUnits_hostSide : (runUnits f s).hostSide = s.hostSide := by simp [runUnits]
@[simp] theorem runUnits_serviceSide : (runUnits f s).serviceSide = s.serviceSide := by simp [runUnits]
@[simp] theorem runUnits_arrivals : (runUnits f s).arrivals = s.arrivals := by simp [runUnits]
@[simp] theorem runUnits_power : (runUnits f s).power = s.power := by simp [runUnits]

theorem unitEvent_running (h : s.power = .running) : unitEvent f s = runUnits f s := by
  unfold unitEvent; rw [if_pos h]

end Sys2Proof.Machine
end

