-- ==== Sys2Proof/Laws/Orders.lean ====
section
/-! SUPPORT. The intake of an order (R172 to R175): what taking a slot writes, what it leaves alone, and an order taken and
completed by its owning unit in the same event. -/

namespace Sys2Proof.Machine

/-! ## Taking a slot (R173) -/

theorem takeSlot_ram_out {slot a : Nat} (s : State) (h : ¬ inIntake slot a) :
    memRead (takeSlot slot s).ram a = memRead s.ram a := by
  unfold inIntake at h
  unfold takeSlot
  dsimp only
  have h4 : (stampBytes s.deckClock).length = 4 := rfl
  rw [memRead_memWriteBytes_out _ _ (by simp; omega), memRead_memWriteBytes_out _ _ (by omega),
    memRead_memWriteBytes_out _ _ (by simp; omega), memRead_memWrite_ne _ _ (by omega)]

theorem wf_takeSlot {slot : Nat} {s : State} (h : Memory.wf s.ram = true) : Memory.wf (takeSlot slot s).ram = true := by
  unfold takeSlot
  dsimp only
  exact wf_memWriteBytes (wf_memWriteBytes (wf_memWriteBytes (wf_memWrite h _ _) _ _) _ _) _ _

theorem getD_zeros (n i : Nat) : (List.replicate n (0 : Byte)).getD i 0 = 0 := by
  rw [List.getD_eq_getElem?_getD, List.getElem?_replicate]
  split <;> rfl

/-- The bytes that the intake writes: result code, detail and done stamp 0, and the take stamp (R173). -/
theorem takeSlot_ram_in {slot : Nat} {s : State} (h : Memory.wf s.ram = true) :
    memRead (takeSlot slot s).ram (slotBase slot + 7) = 0 ∧
      (∀ i < 16, memRead (takeSlot slot s).ram (slotBase slot + 32 + i) = 0) ∧
      (∀ i < 4, memRead (takeSlot slot s).ram (slotBase slot + 48 + i) = (stampBytes s.deckClock).getD i 0) ∧
      ∀ i < 4, memRead (takeSlot slot s).ram (slotBase slot + 52 + i) = 0 := by
  have h4 : (stampBytes s.deckClock).length = 4 := rfl
  have w1 := wf_memWrite h (slotBase slot + 7) 0
  have w2 := wf_memWriteBytes w1 (slotBase slot + 32) (List.replicate 16 0)
  have w3 := wf_memWriteBytes w2 (slotBase slot + 48) (stampBytes s.deckClock)
  unfold takeSlot
  dsimp only
  refine ⟨?_, ?_, ?_, ?_⟩
  · rw [memRead_memWriteBytes_out _ _ (by omega), memRead_memWriteBytes_out _ _ (by omega),
      memRead_memWriteBytes_out _ _ (by omega), memRead_memWrite_wf h, if_pos rfl]
  · intro i hi
    rw [memRead_memWriteBytes_out _ _ (by omega), memRead_memWriteBytes_out _ _ (by omega),
      memRead_memWriteBytes_in w1 _ _ _ (by simp; omega), getD_zeros]
  · intro i hi
    rw [memRead_memWriteBytes_out _ _ (by omega), memRead_memWriteBytes_in w2 _ _ _ (by omega)]
  · intro i hi
    rw [memRead_memWriteBytes_in w3 _ _ _ (by simp; omega), getD_zeros]

@[simp] theorem takeSlot_toDeck (slot : Nat) (s : State) : (takeSlot slot s).toDeck = s.toDeck := by
  simp only [takeSlot]
@[simp] theorem takeSlot_hostSide (slot : Nat) (s : State) : (takeSlot slot s).hostSide = s.hostSide := by
  simp only [takeSlot, State.hostSide]
@[simp] theorem takeSlot_serviceSide (slot : Nat) (s : State) : (takeSlot slot s).serviceSide = s.serviceSide := by
  simp only [takeSlot, State.serviceSide]
@[simp] theorem takeSlot_power (slot : Nat) (s : State) : (takeSlot slot s).power = s.power := by
  simp only [takeSlot]
@[simp] theorem takeSlot_partState (slot : Nat) (s : State) : (takeSlot slot s).partState = s.partState := by
  simp only [takeSlot]
@[simp] theorem takeSlot_deckClock (slot : Nat) (s : State) : (takeSlot slot s).deckClock = s.deckClock := by
  simp only [takeSlot]
@[simp] theorem takeSlot_work (slot : Nat) (s : State) : (takeSlot slot s).work = s.work := by
  simp only [takeSlot, State.work]
@[simp] theorem takeSlot_arrivals (slot : Nat) (s : State) : (takeSlot slot s).arrivals = s.arrivals.drop 1 := by
  simp only [takeSlot]
@[simp] theorem takeSlot_env_now (slot : Nat) (s : State) : (takeSlot slot s).env.now = s.deckClock := by
  simp only [takeSlot, State.env]
@[simp] theorem takeSlot_env_ram (slot : Nat) (s : State) : (takeSlot slot s).env.ram = (takeSlot slot s).ram := by
  simp only [takeSlot, State.env]
@[simp] theorem takeSlot_env_part (slot : Nat) (s : State) : (takeSlot slot s).env.part = s.partState := by
  simp only [takeSlot, State.env]
@[simp] theorem takeSlot_env_starting (slot : Nat) (s : State) :
    (takeSlot slot s).env.starting = s.starting.isSome := by
  simp only [takeSlot, State.env]

/-! ## Reads of the configuration and of the slot's own parameters -/

/-- Two memories that read alike outside one slot's intake bytes. -/
def sameOutside (slot : Nat) (m m' : Memory) : Prop := ∀ a, ¬ inIntake slot a → memRead m' a = memRead m a

theorem sameOutside_takeSlot (slot : Nat) (s : State) : sameOutside slot s.ram (takeSlot slot s).ram :=
  fun _ h => takeSlot_ram_out s h

section
variable {slot : Nat} {m m' : Memory} (h : sameOutside slot m m') (hs : slot < 32)
include h hs

theorem same_above {a : Nat} (ha : 0x0900 ≤ a) : memRead m' a = memRead m a :=
  h a (by unfold inIntake slotBase; omega)

theorem same_byteAt {a : Nat} (ha : 0x0900 ≤ a) : byteAt m' a = byteAt m a := by
  simp [byteAt, same_above h hs ha]

theorem same_wordAt {a : Nat} (ha : 0x0900 ≤ a) : wordAt m' a = wordAt m a := by
  simp [wordAt, memReadWord, same_above h hs ha, same_above h hs (show 0x0900 ≤ a + 1 by omega)]

theorem same_signedAt {a : Nat} (ha : 0x0900 ≤ a) : signedAt m' a = signedAt m a := by
  simp [signedAt, memReadWord, same_above h hs ha, same_above h hs (show 0x0900 ≤ a + 1 by omega)]

theorem same_tableKind (n : Nat) : tableKind m' n = tableKind m n := by
  simp [tableKind, same_byteAt h hs (show 0x0900 ≤ stationBase n by unfold stationBase; omega)]

theorem same_zoneConfig (z : Nat) : zoneConfig m' z = zoneConfig m z := by
  have hb : 0x0900 ≤ zoneBase z := by unfold zoneBase; omega
  simp [zoneConfig, same_byteAt h hs hb, same_byteAt h hs (Nat.le_add_right_of_le hb)]

theorem same_boundaryConfig (b : Nat) : boundaryConfig m' b = boundaryConfig m b := by
  have hb : 0x0900 ≤ boundaryBase b := by unfold boundaryBase; omega
  simp [boundaryConfig, same_byteAt h hs hb, same_byteAt h hs (Nat.le_add_right_of_le hb)]

theorem same_rampConfig (u : Nat) : rampConfig m' u = rampConfig m u := by
  have hb : 0x0900 ≤ rampBase u := by unfold rampBase; omega
  simp [rampConfig, same_byteAt h hs hb, same_byteAt h hs (Nat.le_add_right_of_le hb),
    same_wordAt h hs (Nat.le_add_right_of_le hb), same_signedAt h hs (Nat.le_add_right_of_le hb)]

theorem same_zoneUsed (z : Nat) : zoneUsed m' z = zoneUsed m z := by
  simp [zoneUsed, same_zoneConfig h hs]

theorem same_zonesInUse : zonesInUse m' = zonesInUse m := by
  simp [zonesInUse, same_zoneConfig h hs]

theorem same_coverOf (u : Nat) : coverOf m' u = coverOf m u := by
  simp [coverOf, same_rampConfig h hs, same_boundaryConfig h hs]

omit hs in
/-- The parameters of the slot itself stand outside its intake bytes. -/
theorem same_param {off : Nat} (ho : off < 7 ∨ (8 ≤ off ∧ off < 32)) :
    memRead m' (slotBase slot + off) = memRead m (slotBase slot + off) :=
  h _ (by unfold inIntake; omega)

omit hs in
theorem same_slotKind : slotKind m' slot = slotKind m slot := by
  simp [slotKind, byteAt, same_param h (off := 2) (by omega)]

omit hs in
theorem same_slotQuiet : slotQuiet m' slot = slotQuiet m slot := by
  simp [slotQuiet, same_param h (off := 3) (by omega)]

omit hs in
theorem same_slotTarget : slotTarget m' slot = slotTarget m slot := by
  simp [slotTarget, byteAt, same_param h (off := 6) (by omega)]

omit hs in
theorem same_slotTag : slotTag m' slot = slotTag m slot := by
  have h5 := same_param h (off := 5) (by omega)
  rw [show slotBase slot + 5 = slotBase slot + 4 + 1 by omega] at h5
  simp [slotTag, memReadWord, same_param h (off := 4) (by omega), h5]

omit hs in
theorem same_slotByte {off : Nat} (ho : 8 ≤ off ∧ off < 32) : slotByte m' slot off = slotByte m slot off := by
  simp [slotByte, byteAt, same_param h (off := off) (by omega)]

omit hs in
theorem same_slotWord {off : Nat} (ho : 8 ≤ off ∧ off < 31) : slotWord m' slot off = slotWord m slot off := by
  have h1 := same_param h (off := off + 1) (by omega)
  rw [← Nat.add_assoc] at h1
  simp [slotWord, memReadWord, same_param h (off := off) (by omega), h1]

omit hs in
theorem same_slotAngle {off : Nat} (ho : 8 ≤ off ∧ off < 31) : slotAngle m' slot off = slotAngle m slot off := by
  have h1 := same_param h (off := off + 1) (by omega)
  rw [← Nat.add_assoc] at h1
  simp [slotAngle, signedAt, memReadWord, same_param h (off := off) (by omega), h1]

end

theorem commonCheck_takeSlot {kind slot : Nat} {s : State} (hs : slot < 32) :
    commonCheck kind slot (takeSlot slot s) = commonCheck kind slot s := by
  have h := sameOutside_takeSlot slot s
  have ht : ∀ t, targetInRange kind t (takeSlot slot s) = targetInRange kind t s := by
    intro t
    unfold targetInRange
    split <;> simp [same_tableKind h hs, same_zoneUsed h hs, same_boundaryConfig h hs, same_rampConfig h hs]
  simp only [commonCheck, same_slotTarget h, ht, takeSlot_partState]

/-- An order that the order unit takes reaches its owning unit, with its slot TAKEN (R173, R174). -/
theorem intake_takes {kind slot : Nat} {s : State} (h : s.takes kind slot) (act : Nat → State → State) :
    intake kind act s = act slot (takeSlot slot s) := by
  obtain ⟨⟨hp, _, _, hs, ha, _, hk⟩, hc⟩ := h
  obtain ⟨rest, hr⟩ : ∃ rest, s.arrivals = slot :: rest := by
    cases hq : s.arrivals with
    | nil => rw [hq] at ha; simp at ha
    | cons x r => rw [hq] at ha; simp at ha; subst ha; exact ⟨r, rfl⟩
  unfold intake intakeWhere
  rw [if_pos hp, hr]
  simp only [hk, beq_self_eq_true, if_true]
  unfold intakeSlot
  simp only
  rw [commonCheck_takeSlot hs, hc]

theorem unitIntake_takes {kind slot : Nat} {s : State} (h : s.takes kind slot) (act : Env → Nat → Work → Work) :
    unitIntake kind act s = runUnits (fun e w => act e slot w) (takeSlot slot s) :=
  intake_takes h _

/-! ## An order taken and handed to a unit -/

theorem taken_runUnits {kind slot : Nat} {s : State} (h : s.takes kind slot) (f : Env → Work → Work) :
    taken s (runUnits f (takeSlot slot s)) slot := by
  obtain ⟨⟨_, hw, _, _, _, _, _⟩, _⟩ := h
  refine ⟨by rw [runUnits_arrivals, takeSlot_arrivals], ?_⟩
  intro i hi
  rw [← (takeSlot_ram_in hw).2.2.1 i hi]
  generalize takeSlot slot s = t
  unfold runUnits
  rw [refresh_ram, absorb_eq]
  generalize closeEvent _ _ _ = v
  have : (withUnits v t).ram = t.ram := rfl
  rw [← this]
  refine completeAll_ram_out ?_
  intro k _
  by_cases hk : slot = k
  · subst hk; unfold inResult; omega
  · exact inResult_disjoint hk (by omega)

/-- A unit's report for the slot just taken, with no report for that slot before it, completes the order (R175). -/
theorem completed_runUnits {kind slot : Nat} {s : State} (h : s.takes kind slot) (f : Env → Work → Work)
    {l r : List Completion} {result : Result} {detail : List Byte}
    (hf : (closeEvent (takeSlot slot s).env s.toDeck (f (takeSlot slot s).env s.work)).outbox =
      l ++ ⟨slot, result, detail⟩ :: r)
    (hl : ∀ d ∈ l, d.slot ≠ slot) : completed s (runUnits f (takeSlot slot s)) slot result detail := by
  obtain ⟨⟨_, hw, _, hs, _, _, _⟩, _⟩ := h
  have hq := same_slotQuiet (sameOutside_takeSlot slot s)
  have ht : tget (takeSlot slot s).hands slot = .taken := by simp [takeSlot, hs]
  have hwt : Memory.wf (takeSlot slot s).ram = true := wf_takeSlot hw
  have hd : (takeSlot slot s).deckClock = s.deckClock := takeSlot_deckClock slot s
  rw [← takeSlot_toDeck slot s, ← takeSlot_work slot s] at hf
  unfold completed
  rw [← hq, ← hd]
  generalize takeSlot slot s = t at *
  unfold runUnits
  rw [refresh_hands, refresh_orderDone, refresh_ram, absorb_eq, hf]
  exact completeAll_completed (l := l) (r := r) (c := ⟨slot, result, detail⟩) (s := withUnits _ t) hwt hs ht hl

end Sys2Proof.Machine
end

