-- ==== Sys2Proof/WellFormed.lean ====
section
/-! DEFINITION. Which commands the host, the lines and the timers can send: what a row of the table says of its operands
beyond their types. -/

namespace Sys2Proof

open Sys2Proof.Machine

/-- The operand check of a command. The bus addresses words, so a host write names an even address (0.6.5); a reload
carries 1 to 255 (R181); a CONTROL write is a bridge reset when its bit 1 is set and an interrupt enable write otherwise
(R165); the characters of a line event are those of the event it names (R16, R21, R22). Every other command is well
formed. -/
def Instr.wellFormed : Instr → Bool
  | .hostWrite addr _ => !addr.getLsbD 0
  | .heartbeatReload value => decide (1 ≤ value.toNat ∧ value.toNat ≤ 255)
  | .interruptEnableWrite value => !value.getLsbD 1
  | .bridgeReset value => value.getLsbD 1
  | .replyStart _ heard => syncHunt heard
  | .receptionFault _ chars =>
    match receive chars with
    | .faulty _ => true
    | _ => false
  | .replyFrame _ chars =>
    match receive chars with
    | .complete _ _ _ _ => true
    | _ => false
  | .posting _ | .withdrawal _ | .giveBack _ | .take _ _ | .newsFlagClear _ | .deckClockLowRead | .windowWrite _
  | .bridgeResetEnd | .registerWriteIgnored _ _ | .powerOnReset | .powerOnClear | .powerOnClearEnd | .startService
  | .startTakesEffect | .enterSetup | .resume | .isolateLine | .restoreLine | .testStation | .unmuteStation
  | .rampLower | .rampRaise | .rampStop | .rampTraffic | .closeBoundary | .closeZone | .releaseBoundary | .forceCover
  | .call | .cancelCall | .refusedKind | .idleWaitSuccess _ | .idleWaitTimeout _ | .retry _ | .pollEnd _ | .noReply _
  | .truncated _ | .motionPrewarnExpiry _ | .playLimitExpiry _ | .deadmanWaitExpiry _ | .reversalDwellEnd _
  | .pinsTimerExpiry _ | .resumeTimerExpiry _ | .requestTimerExpiry _ | .doorPrewarnExpiry _ | .coverPrewarnExpiry _
  | .closingLimitExpiry _ | .reversalTimerExpiry _ | .passageHoldExpiry _ | .passageCapExpiry _ | .playTimeout _
  | .pauseEnd _ | .lampLingerExpiry _ | .heartbeatDecrement | .abandonedPollCharacterEnd _ => true

end Sys2Proof
end

