-- ==== Sys2Proof/Laws/PerInstr.lean ====
section
/-! SUPPORT. What the operand check of each command says, command by command: the arithmetic of the operand that the bus or
the line gives it. -/

namespace Sys2Proof.Laws.WellFormedness

open Sys2Proof Sys2Proof.Machine

/-- What a well-formed command's operands are: an even address (0.6.5), a count of 1 to 255 (R181), bit 1 of CONTROL clear or
set (R165), characters that end with a sync pair (R16), and characters that end or complete a reception (R21, R22). -/
def Operands : Instr → Prop
  | .hostWrite addr _ => addr.toNat % 2 = 0
  | .heartbeatReload value => 1 ≤ value.toNat ∧ value.toNat ≤ 255
  | .interruptEnableWrite value => value.toNat / 2 % 2 = 0
  | .bridgeReset value => value.toNat / 2 % 2 = 1
  | .replyStart _ heard => ∃ d : RxChar, heard.getLast? = some d ∧ sound d = true ∧ d.data = 0x3C
  | .receptionFault _ chars => ∃ o, receive chars = .faulty o
  | .replyFrame _ chars => ∃ head length payload check, receive chars = .complete head length payload check
  | .posting slot | .withdrawal slot | .giveBack slot => slot.val < 32
  | .take cell _ => cell.val < 50
  | .newsFlagClear _ | .deckClockLowRead | .windowWrite _ | .bridgeResetEnd | .registerWriteIgnored _ _
  | .powerOnReset | .powerOnClear | .powerOnClearEnd | .startService | .startTakesEffect | .enterSetup | .resume
  | .isolateLine | .restoreLine | .testStation | .unmuteStation | .rampLower | .rampRaise | .rampStop | .rampTraffic
  | .closeBoundary | .closeZone | .releaseBoundary | .forceCover | .call | .cancelCall | .refusedKind
  | .idleWaitSuccess _ | .idleWaitTimeout _ | .retry _ | .pollEnd _ | .noReply _ | .truncated _
  | .motionPrewarnExpiry _ | .playLimitExpiry _ | .deadmanWaitExpiry _ | .reversalDwellEnd _ | .pinsTimerExpiry _
  | .resumeTimerExpiry _ | .requestTimerExpiry _ | .doorPrewarnExpiry _ | .coverPrewarnExpiry _
  | .closingLimitExpiry _ | .reversalTimerExpiry _ | .passageHoldExpiry _ | .passageCapExpiry _ | .playTimeout _
  | .pauseEnd _ | .lampLingerExpiry _ | .heartbeatDecrement | .abandonedPollCharacterEnd _ => True

/-- A well-formed command has the operands that its row of the table gives it. -/
def Statement (i : Instr) : Prop := i.wellFormed = true → Operands i

/-- The hunt ends with a sound 0x3C. -/
theorem huntFrom_last (l : List RxChar) :
    ∀ armed, huntFrom armed l = true → ∃ d : RxChar, l.getLast? = some d ∧ sound d = true ∧ d.data = 0x3C := by
  induction l with
  | nil => intro armed h; simp [huntFrom] at h
  | cons c rest ih =>
    intro armed h
    simp only [huntFrom] at h
    split at h
    · rename_i hc
      obtain rfl : rest = [] := by simpa using h
      simp only [Bool.and_eq_true, beq_iff_eq] at hc
      exact ⟨c, rfl, hc.1.2, hc.2⟩
    · obtain ⟨d, hd, hs⟩ := ih _ h
      exact ⟨d, by rw [List.getLast?_cons, hd]; rfl, hs⟩

theorem getLsbD_one_of (value : Word) : value.getLsbD 1 = decide (value.toNat / 2 % 2 = 1) := by
  rw [BitVec.getLsbD, Nat.testBit_eq_decide_div_mod_eq]

theorem posting (slot : Fin 32) : Statement (.posting slot) := fun _ => slot.isLt

theorem withdrawal (slot : Fin 32) : Statement (.withdrawal slot) := fun _ => slot.isLt

theorem giveBack (slot : Fin 32) : Statement (.giveBack slot) := fun _ => slot.isLt

theorem take (cell : Fin 50) (number : Byte) : Statement (.take cell number) := fun _ => cell.isLt

theorem hostWrite (addr : BitVec 14) (value : Word) : Statement (.hostWrite addr value) := by
  intro h
  simp only [Instr.wellFormed, BitVec.getLsbD, Nat.testBit_zero, Bool.not_eq_true', decide_eq_false_iff_not] at h
  show addr.toNat % 2 = 0
  omega

theorem heartbeatReload (value : Word) : Statement (.heartbeatReload value) := fun h =>
  of_decide_eq_true (p := 1 ≤ value.toNat ∧ value.toNat ≤ 255) h

theorem newsFlagClear (flag : ClearableFlag) : Statement (.newsFlagClear flag) := fun _ => trivial

theorem deckClockLowRead : Statement (.deckClockLowRead) := fun _ => trivial

theorem windowWrite (value : Word) : Statement (.windowWrite value) := fun _ => trivial

theorem interruptEnableWrite (value : Word) : Statement (.interruptEnableWrite value) := by
  intro h
  simp only [Instr.wellFormed, getLsbD_one_of, Bool.not_eq_true', decide_eq_false_iff_not] at h
  show value.toNat / 2 % 2 = 0
  omega

theorem bridgeReset (value : Word) : Statement (.bridgeReset value) :=
  fun h =>
  of_decide_eq_true (p := value.toNat / 2 % 2 = 1) ((getLsbD_one_of value).symm.trans h)

theorem bridgeResetEnd : Statement (.bridgeResetEnd) := fun _ => trivial

theorem registerWriteIgnored (position : IgnoredPosition) (value : Word) : Statement (.registerWriteIgnored position value) := fun _ => trivial

theorem powerOnReset : Statement (.powerOnReset) := fun _ => trivial

theorem powerOnClear : Statement (.powerOnClear) := fun _ => trivial

theorem powerOnClearEnd : Statement (.powerOnClearEnd) := fun _ => trivial

theorem startService : Statement (.startService) := fun _ => trivial

theorem startTakesEffect : Statement (.startTakesEffect) := fun _ => trivial

theorem enterSetup : Statement (.enterSetup) := fun _ => trivial

theorem resume : Statement (.resume) := fun _ => trivial

theorem isolateLine : Statement (.isolateLine) := fun _ => trivial

theorem restoreLine : Statement (.restoreLine) := fun _ => trivial

theorem testStation : Statement (.testStation) := fun _ => trivial

theorem unmuteStation : Statement (.unmuteStation) := fun _ => trivial

theorem rampLower : Statement (.rampLower) := fun _ => trivial

theorem rampRaise : Statement (.rampRaise) := fun _ => trivial

theorem rampStop : Statement (.rampStop) := fun _ => trivial

theorem rampTraffic : Statement (.rampTraffic) := fun _ => trivial

theorem closeBoundary : Statement (.closeBoundary) := fun _ => trivial

theorem closeZone : Statement (.closeZone) := fun _ => trivial

theorem releaseBoundary : Statement (.releaseBoundary) := fun _ => trivial

theorem forceCover : Statement (.forceCover) := fun _ => trivial

theorem call : Statement (.call) := fun _ => trivial

theorem cancelCall : Statement (.cancelCall) := fun _ => trivial

theorem refusedKind : Statement (.refusedKind) := fun _ => trivial

theorem idleWaitSuccess (line : LineId) : Statement (.idleWaitSuccess line) := fun _ => trivial

theorem idleWaitTimeout (line : LineId) : Statement (.idleWaitTimeout line) := fun _ => trivial

theorem retry (line : LineId) : Statement (.retry line) := fun _ => trivial

theorem pollEnd (line : LineId) : Statement (.pollEnd line) := fun _ => trivial

theorem replyStart (line : LineId) (heard : List RxChar) : Statement (.replyStart line heard) :=
  fun h => huntFrom_last heard false h

theorem noReply (line : LineId) : Statement (.noReply line) := fun _ => trivial

theorem receptionFault (line : LineId) (chars : List RxChar) : Statement (.receptionFault line chars) := by
  intro h
  simp only [Instr.wellFormed] at h
  split at h
  · exact ⟨_, by assumption⟩
  · cases h

theorem truncated (line : LineId) : Statement (.truncated line) := fun _ => trivial

theorem replyFrame (line : LineId) (chars : List RxChar) : Statement (.replyFrame line chars) := by
  intro h
  simp only [Instr.wellFormed] at h
  split at h
  · exact ⟨_, _, _, _, by assumption⟩
  · cases h

theorem motionPrewarnExpiry (ramp : Fin 4) : Statement (.motionPrewarnExpiry ramp) := fun _ => trivial

theorem playLimitExpiry (ramp : Fin 4) : Statement (.playLimitExpiry ramp) := fun _ => trivial

theorem deadmanWaitExpiry (ramp : Fin 4) : Statement (.deadmanWaitExpiry ramp) := fun _ => trivial

theorem reversalDwellEnd (ramp : Fin 4) : Statement (.reversalDwellEnd ramp) := fun _ => trivial

theorem pinsTimerExpiry (ramp : Fin 4) : Statement (.pinsTimerExpiry ramp) := fun _ => trivial

theorem resumeTimerExpiry (ramp : Fin 4) : Statement (.resumeTimerExpiry ramp) := fun _ => trivial

theorem requestTimerExpiry (ramp : Fin 4) : Statement (.requestTimerExpiry ramp) := fun _ => trivial

theorem doorPrewarnExpiry (boundary : Fin 24) : Statement (.doorPrewarnExpiry boundary) := fun _ => trivial

theorem coverPrewarnExpiry (boundary : Fin 24) : Statement (.coverPrewarnExpiry boundary) := fun _ => trivial

theorem closingLimitExpiry (boundary : Fin 24) : Statement (.closingLimitExpiry boundary) := fun _ => trivial

theorem reversalTimerExpiry (boundary : Fin 24) : Statement (.reversalTimerExpiry boundary) := fun _ => trivial

theorem passageHoldExpiry (boundary : Fin 24) : Statement (.passageHoldExpiry boundary) := fun _ => trivial

theorem passageCapExpiry (boundary : Fin 24) : Statement (.passageCapExpiry boundary) := fun _ => trivial

theorem playTimeout (zone : Fin 16) : Statement (.playTimeout zone) := fun _ => trivial

theorem pauseEnd (zone : Fin 16) : Statement (.pauseEnd zone) := fun _ => trivial

theorem lampLingerExpiry (zone : Fin 16) : Statement (.lampLingerExpiry zone) := fun _ => trivial

theorem heartbeatDecrement : Statement (.heartbeatDecrement) := fun _ => trivial

theorem abandonedPollCharacterEnd (line : LineId) : Statement (.abandonedPollCharacterEnd line) := fun _ => trivial

end Sys2Proof.Laws.WellFormedness
end

