-- ==== Sys2Proof/Laws/Units.lean ====
section
/-! SUPPORT. The frame of the ramp channels and of the boundary unit: which ramps and which boundaries an operation can
change, and that it changes no line, no output, no record and no queue. -/

namespace Sys2Proof.Machine

/-- The work with everything that ramp channels and the boundary unit write set aside. -/
def outsideUnits (w : Work) : Work :=
  { w with ramps := Vector.replicate 4 {}, boundaries := Vector.replicate 24 {}, zones := Vector.replicate 16 {},
           boundaryView := Vector.replicate 24 {}, rampView := Vector.replicate 4 .unknown,
           cells := Vector.replicate 50 {}, stations := w.stations.map unmutedCount,
           zoneOrders := Vector.replicate 32 {}, outbox := [] }

/-- `w'` differs from `w` in the ramps `us` and the boundaries `bs`, in the zones' views of them, in attentions, in what the
boundary unit keeps for CLOSE ZONE orders, and in further completion reports; in nothing else. -/
def Within (us bs : List Nat) (w w' : Work) : Prop :=
  outsideUnits w' = outsideUnits w ∧ (∀ v, v ∉ us → tget w'.ramps v = tget w.ramps v) ∧
    (∀ c, c ∉ bs → tget w'.boundaries c = tget w.boundaries c) ∧ ∃ l, w'.outbox = w.outbox ++ l

theorem Within.refl (us bs : List Nat) (w : Work) : Within us bs w w :=
  ⟨rfl, fun _ _ => rfl, fun _ _ => rfl, [], by simp⟩

theorem Within.trans {us bs : List Nat} {w w' w'' : Work} (h : Within us bs w w') (h' : Within us bs w' w'') :
    Within us bs w w'' := by
  obtain ⟨a, b, c, l, d⟩ := h
  obtain ⟨a', b', c', l', d'⟩ := h'
  exact ⟨a'.trans a, fun v hv => (b' v hv).trans (b v hv), fun v hv => (c' v hv).trans (c v hv), l ++ l',
    by rw [d', d, List.append_assoc]⟩

theorem Within.mono {us us' bs bs' : List Nat} {w w' : Work} (h : Within us bs w w') (hu : us ⊆ us') (hb : bs ⊆ bs') :
    Within us' bs' w w' := by
  obtain ⟨a, b, c, d⟩ := h
  exact ⟨a, fun v hv => b v (fun x => hv (hu x)), fun v hv => c v (fun x => hv (hb x)), d⟩

variable (e : Env) (w : Work)

theorem within_modRamp (u : Nat) (f : Ramp → Ramp) (bs : List Nat) : Within [u] bs w (modRamp u f w) := by
  refine ⟨rfl, fun v hv => ?_, fun _ _ => rfl, [], by simp⟩
  simp only [modRamp_ramps]
  exact tget_tmod_ne _ _ (fun h => hv (by simp [h]))

theorem within_modBoundary (us : List Nat) (b : Nat) (f : Boundary → Boundary) :
    Within us [b] w (modBoundary b f w) := by
  refine ⟨rfl, fun _ _ => rfl, fun v hv => ?_, [], by simp⟩
  simp only [modBoundary_boundaries]
  exact tget_tmod_ne _ _ (fun h => hv (by simp [h]))

theorem within_complete (us bs : List Nat) (k : Nat) (r : Result) (d : List Byte) :
    Within us bs w (complete k r d w) := ⟨rfl, fun _ _ => rfl, fun _ _ => rfl, [_], rfl⟩

theorem within_modZoneOrder (us bs : List Nat) (k : Nat) (f : ZoneOrder → ZoneOrder) :
    Within us bs w (modZoneOrder k f w) := ⟨rfl, fun _ _ => rfl, fun _ _ => rfl, [], by simp⟩

theorem within_raiseStation (us bs : List Nat) (a : Nat) (k : AttentionKind) (d : Word) :
    Within us bs w (raiseStation e a k d w) := by
  have h := outsideAttention_raiseStation e w a k d
  have hr : (raiseStation e a k d w).ramps = w.ramps := (congrArg (fun x : Work => x.ramps) h :)
  have hb : (raiseStation e a k d w).boundaries = w.boundaries := (congrArg (fun x : Work => x.boundaries) h :)
  have ho : (raiseStation e a k d w).outbox = w.outbox := (congrArg (fun x : Work => x.outbox) h :)
  refine ⟨?_, fun _ _ => by rw [hr], fun _ _ => by rw [hb], [], by rw [ho]; simp⟩
  have h2 := congrArg (fun x : Work => ({ x with
    ramps := Vector.replicate 4 {}
    boundaries := Vector.replicate 24 {}
    zones := Vector.replicate 16 {}
    boundaryView := Vector.replicate 24 {}
    rampView := Vector.replicate 4 .unknown
    zoneOrders := Vector.replicate 32 {}
    outbox := [] } : Work)) h
  exact h2

theorem within_rampReport (us bs : List Nat) (u : Nat) (st : RampState) : Within us bs w (rampReport e u st w) := by
  have h := outsideZones_rampReport e w u st
  refine ⟨?_, fun _ _ => by rw [ramps_of_zones h], fun _ _ => by rw [boundaries_of_zones h], [],
    by rw [outbox_of_zones h]; simp⟩
  have h2 := congrArg outsideUnits h
  exact h2

theorem within_each {us bs : List Nat} {α : Type} {f : α → Work → Work} {l : List α}
    (h : ∀ x ∈ l, ∀ w, Within us bs w (f x w)) (w : Work) : Within us bs w (each l f w) :=
  each_induct (P := fun v => Within us bs w v) (fun x hx v hv => hv.trans (h x hx v)) (Within.refl us bs w)

/-! ## Boundaries -/

theorem within_settleSlot (us bs : List Nat) (b : Nat) (arrived : Bool) (k : Nat) :
    Within us bs w (settleSlot b arrived k w) := by
  unfold settleSlot
  split
  · exact within_modZoneOrder w us bs k _
  · exact within_complete w us bs k _ _

theorem within_settleWaiting (us : List Nat) (b : Nat) (arrived : Bool) : Within us [b] w (settleWaiting b arrived w) :=
  (within_each (fun k _ v => within_settleSlot v us [b] b arrived k) w).trans (within_modBoundary _ us b _)

theorem within_enterBoundary (us : List Nat) (b : Nat) (st : BoundaryState) : Within us [b] w (enterBoundary b st w) :=
  within_modBoundary w us b _

theorem within_enterPrewarn (us : List Nat) (b : Nat) : Within us [b] w (enterPrewarn e b w) :=
  (within_enterBoundary w us b _).trans (within_modBoundary _ us b _)

theorem within_enterClosing (us : List Nat) (b : Nat) : Within us [b] w (enterClosing e b w) :=
  (within_enterBoundary w us b _).trans (within_modBoundary _ us b _)

theorem within_arrive (us : List Nat) (b : Nat) : Within us [b] w (arrive b w) :=
  ((within_enterBoundary w us b _).trans (within_settleWaiting _ us b _)).trans (within_modBoundary _ us b _)

theorem within_failClosure (us : List Nat) (b : Nat) : Within us [b] w (failClosure b w) :=
  (within_enterBoundary w us b _).trans (within_settleWaiting _ us b _)

theorem within_closeDoor (us : List Nat) (b k : Nat) (d : Demand) : Within us [b] w (closeDoor e b k d w) := by
  unfold closeDoor
  dsimp only
  have h0 := within_modBoundary w us b (demandTaken e b d)
  split
  · exact h0.trans (within_settleSlot _ us [b] b _ k)
  · split
    · exact h0.trans (within_settleSlot _ us [b] b _ k)
    · have h1 := h0.trans (within_modBoundary _ us b (appendWaiting k))
      split
      · exact h1.trans (within_enterPrewarn e _ us b)
      · split
        · exact h1.trans (within_enterClosing e _ us b)
        · exact h1

theorem within_failDoor (us : List Nat) (b d : Nat) : Within us [b] w (failDoor e b d w) :=
  (within_raiseStation e w us [b] _ _ _).trans (within_failClosure _ us b)

theorem within_blockCover (us : List Nat) (b : Nat) (c : BlockCause) (d : Nat) :
    Within us [b] w (blockCover e b c d w) :=
  ((within_enterBoundary w us b _).trans (within_modBoundary _ us b _)).trans (within_raiseStation e _ us [b] _ _ _)

theorem within_demandOnRest (u : Nat) (bs : List Nat) : Within [u] bs w (demandOnRest u w) :=
  within_modRamp w u _ bs

theorem within_followRamp (b u : Nat) (st : RampState) (r : Reason) : Within [u] [b] w (followRamp e b u st r w) := by
  unfold followRamp
  dsimp only
  split
  · exact within_enterBoundary w [u] b _
  · split
    · split
      · exact Within.refl _ _ w
      · exact within_arrive w [u] b
    · exact within_enterBoundary w [u] b _
    · split
      · exact Within.refl _ _ w
      · exact within_failClosure w [u] b
    all_goals
      unfold followDemanded
      split
      · exact Within.refl _ _ w
      · exact Within.refl _ _ w
      · exact Within.refl _ _ w
      · exact Within.refl _ _ w
      · split
        · exact within_blockCover e w [u] b _ _
        · exact Within.refl _ _ w
      all_goals exact (within_enterPrewarn e w [u] b).trans (within_demandOnRest _ u [b])

/-! ## Ramps -/

/-- The boundary that a ramp forms, as a list. -/
def coversOf (m : Memory) (u : Nat) : List Nat := (coverOf m u).toList

theorem within_enterState (u : Nat) (st : RampState) (r : Reason) :
    Within [u] (coversOf e.ram u) w (enterState e u st r w) := by
  unfold enterState coversOf
  dsimp only
  have h := (within_modRamp w u (rampInState (rampConfig e.ram u) e.now st r) (coverOf e.ram u).toList).trans
    (within_rampReport e _ [u] _ u st)
  cases hc : coverOf e.ram u with
  | none => rw [hc] at h; exact h
  | some b => rw [hc] at h; exact h.trans (within_followRamp e _ b u st r)


theorem within_completeMovement (us bs : List Nat) (u : Nat) (r : Result) (c : Nat) :
    Within us bs w (completeMovement u r c w) := by
  unfold completeMovement
  dsimp only
  split
  · exact within_complete w us bs _ _ _
  · exact Within.refl _ _ w

theorem within_finishMovement (bs : List Nat) (u : Nat) (r : Result) (c : Nat) :
    Within [u] bs w (finishMovement u r c w) :=
  (within_completeMovement w [u] bs u r c).trans (within_modRamp _ u _ bs)

theorem within_endMovementIn (u : Nat) (st : RampState) (x : Reason) (r : Result) (c : Nat) :
    Within [u] (coversOf e.ram u) w (endMovementIn e u st x r c w) :=
  (within_enterState e w u st x).trans (within_finishMovement _ _ u r c)

theorem within_dropRequest (bs : List Nat) (u : Nat) : Within [u] bs w (dropRequest u w) := within_modRamp w u _ bs

theorem within_raiseRamp (us bs : List Nat) (u : Nat) (k : AttentionKind) (d : Word) :
    Within us bs w (raiseRamp e u k d w) := within_raiseStation e w us bs _ k d

theorem within_raisePanel (us bs : List Nat) (u : Nat) (k : AttentionKind) (d : Word) :
    Within us bs w (raisePanel e u k d w) := within_raiseStation e w us bs _ k d

theorem within_faultRamp (u : Nat) (x : Reason) : Within [u] (coversOf e.ram u) w (faultRamp e u x w) := by
  unfold faultRamp
  dsimp only
  split
  · exact within_endMovementIn e w u _ x _ _
  · exact (within_endMovementIn e w u _ x _ _).trans (within_raiseRamp e _ _ _ u _ _)

theorem within_landRamp (u : Nat) : Within [u] (coversOf e.ram u) w (landRamp e u w) := by
  unfold landRamp
  dsimp only
  split
  · exact (within_enterState e w u _ _).trans (within_modRamp _ u _ _)
  · exact (within_enterState e w u _ _).trans (within_raiseRamp e _ _ _ u _ _)

theorem within_enterLowering (u : Nat) : Within [u] (coversOf e.ram u) w (enterLowering e u w) := by
  unfold enterLowering
  dsimp only
  split
  · exact (within_enterState e w u _ _).trans (within_endMovementIn e _ u _ _ _ _)
  · exact within_enterState e w u _ _

theorem within_enterWarning (u : Nat) (q : Request) : Within [u] (coversOf e.ram u) w (enterWarning e u q w) :=
  (within_enterState e w u _ _).trans (within_modRamp _ u _ _)

theorem within_failWarning (u : Nat) (r : Result) (c : Nat) : Within [u] (coversOf e.ram u) w (failWarning e u r c w) :=
  within_endMovementIn e w u _ _ r c

theorem within_startLowering (u : Nat) : Within [u] (coversOf e.ram u) w (startLowering e u w) := by
  unfold startLowering
  split
  · exact within_enterState e w u _ _
  · split
    · exact (within_landRamp e w u).trans (within_finishMovement _ _ u _ _)
    · exact within_enterLowering e w u

theorem within_startRaising (u : Nat) : Within [u] (coversOf e.ram u) w (startRaising e u w) := by
  unfold startRaising
  split
  · exact within_endMovementIn e w u _ _ _ _
  · split
    · exact within_enterState e w u _ _
    · exact within_enterState e w u _ _

theorem within_endWarningState (u : Nat) : Within [u] (coversOf e.ram u) w (endWarningState e u w) := by
  unfold endWarningState
  split
  · exact within_failWarning e w u _ _
  · split
    · exact within_startLowering e w u
    · exact within_startRaising e w u

theorem within_checkWarning (u : Nat) : Within [u] (coversOf e.ram u) w (checkWarning e u w) := by
  unfold checkWarning
  dsimp only
  split
  · exact Within.refl _ _ w
  · split
    · exact within_endWarningState e w u
    · split
      · exact Within.refl _ _ w
      · exact within_modRamp w u _ _

theorem within_motionPrewarnEnds (u : Nat) : Within [u] (coversOf e.ram u) w (motionPrewarnEnds e u w) := by
  unfold motionPrewarnEnds
  dsimp only
  split
  · exact (within_modRamp w u _ _).trans (within_checkWarning e _ u)
  · exact (within_modRamp w u _ _).trans (within_modRamp _ u _ _)

theorem within_reversalDwellEnds (u : Nat) : Within [u] (coversOf e.ram u) w (reversalDwellEnds e u w) :=
  (within_modRamp w u _ _).trans (within_checkWarning e _ u)

theorem within_supersede (u : Nat) (q : Request) : Within [u] (coversOf e.ram u) w (supersede e u q w) := by
  unfold supersede
  dsimp only
  have h := within_completeMovement w [u] (coversOf e.ram u) u .superseded 0
  split
  · exact (h.trans (within_modRamp _ u _ _)).trans (within_checkWarning e _ u)
  · exact (h.trans (within_enterState e _ u _ _)).trans (within_modRamp _ u _ _)

theorem within_startMovement (u : Nat) (q : Request) : Within [u] (coversOf e.ram u) w (startMovement e u q w) := by
  unfold startMovement
  dsimp only
  have h := within_dropRequest w (coversOf e.ram u) u
  split
  · exact h.trans (within_supersede e _ u q)
  · exact h.trans (within_enterWarning e _ u q)

theorem within_completeMotionOrder (us bs : List Nat) (u k : Nat) (r : Result) (c : Nat) (t : Int) :
    Within us bs w (completeMotionOrder u k r c t w) := within_complete w us bs k r _

theorem within_checkAndStart (u : Nat) (q : Request) : Within [u] (coversOf e.ram u) w (checkAndStart e u q w) := by
  unfold checkAndStart
  split
  · exact within_completeMotionOrder w _ _ u _ _ _ _
  · exact within_startMovement e w u q

theorem within_lowerRamp (u k m c : Nat) (a : Int) : Within [u] (coversOf e.ram u) w (lowerRamp e u k m c a w) := by
  unfold lowerRamp
  dsimp only
  split
  · split
    · exact within_completeMotionOrder w _ _ u _ _ _ _
    · split
      · split <;> exact within_completeMotionOrder w _ _ u _ _ _ _
      · split
        · exact (within_landRamp e w u).trans (within_completeMotionOrder _ _ _ u _ _ _ _)
        · exact within_checkAndStart e w u _
  · exact within_completeMotionOrder w _ _ u _ _ _ _
  · exact within_completeMotionOrder w _ _ u _ _ _ _

theorem within_raiseRampOrder (u k c : Nat) : Within [u] (coversOf e.ram u) w (raiseRampOrder e u k c w) := by
  unfold raiseRampOrder
  dsimp only
  split
  · split
    · exact within_completeMotionOrder w _ _ u _ _ _ _
    · split
      · exact within_completeMotionOrder w _ _ u _ _ _ _
      · split
        · exact (within_enterState e w u _ _).trans (within_completeMotionOrder _ _ _ u _ _ _ _)
        · exact within_checkAndStart e w u _
  · exact within_completeMotionOrder w _ _ u _ _ _ _

theorem within_holdRamp (u : Nat) (x : Reason) (r : Result) : Within [u] (coversOf e.ram u) w (holdRamp e u x r w) :=
  within_endMovementIn e w u _ x r 0

theorem within_stopRamp (u k : Nat) : Within [u] (coversOf e.ram u) w (stopRamp e u k w) := by
  unfold stopRamp
  dsimp only
  have h : ∀ v, Within [u] (coversOf e.ram u) w v → Within [u] (coversOf e.ram u) w (complete k .ok [] (dropRequest u v)) := fun v hv =>
    (hv.trans (within_dropRequest _ _ u)).trans (within_complete _ _ _ k _ _)
  apply h
  split
  · exact within_failWarning e w u _ _
  · split
    · exact within_holdRamp e w u _ _
    · split
      · split <;> exact within_enterState e w u _ _
      · exact Within.refl _ _ w

theorem within_coverDemandSet (u : Nat) : Within [u] (coversOf e.ram u) w (coverDemandSet e u w) := by
  unfold coverDemandSet
  dsimp only
  have h : ∀ v, Within [u] (coversOf e.ram u) w v → Within [u] (coversOf e.ram u) w (demandOnRest u v) := fun v hv =>
    hv.trans (within_demandOnRest _ u _)
  apply h
  split
  · exact within_failWarning e w u _ _
  · split
    · exact within_holdRamp e w u _ _
    · exact Within.refl _ _ w

theorem within_coverDemandCleared (u : Nat) : Within [u] (coversOf e.ram u) w (coverDemandCleared e u w) := by
  unfold coverDemandCleared
  dsimp only
  split
  · exact (within_modRamp w u _ _).trans (within_holdRamp e _ u _ _)
  · exact within_modRamp w u _ _

theorem within_rampSafeHold (u : Nat) : Within [u] (coversOf e.ram u) w (rampSafeHold e u w) := by
  unfold rampSafeHold
  dsimp only
  split
  · exact (within_holdRamp e w u _ _).trans (within_dropRequest _ _ u)
  · exact within_dropRequest w _ u

theorem within_trafficOrder (bs : List Nat) (u k n : Nat) : Within [u] bs w (trafficOrder e u k n w) := by
  unfold trafficOrder
  split
  · exact (within_modRamp w u _ _).trans (within_complete _ _ _ k _ _)
  · split
    · exact within_complete w _ _ k _ _
    · split
      · exact within_complete w _ _ k _ _
      · exact (within_modRamp w u _ _).trans (within_complete _ _ _ k _ _)
  · exact within_complete w _ _ k _ _

theorem within_closureRaise (u : Nat) : Within [u] (coversOf e.ram u) w (closureRaise e u w).2 := by
  unfold closureRaise
  dsimp only
  split
  · exact Within.refl _ _ w
  · split
    · exact Within.refl _ _ w
    · exact (within_modRamp w u _ _).trans (within_startRaising e _ u)

/-! ## Covers -/

/-- The ramp that a boundary's record names. -/
def rampOfCover (m : Memory) (b : Nat) : Nat := (boundaryConfig m b).ramp

/-- The boundaries that an operation on cover `b` can change: `b` itself and the cover of its ramp, which START SERVICE
makes the same boundary (R69, R99). -/
def coverAndRamp (m : Memory) (b : Nat) : List Nat := b :: coversOf m (rampOfCover m b)

theorem within_requestRaise (b : Nat) :
    Within [rampOfCover e.ram b] (coverAndRamp e.ram b) w (requestRaise e b w).2 := by
  unfold requestRaise
  dsimp only
  have h1 := (within_enterBoundary w [rampOfCover e.ram b] b .closing).mono (List.Subset.refl _)
    (show [b] ⊆ coverAndRamp e.ram b by simp [coverAndRamp])
  have h2 := (within_closureRaise e (enterBoundary b .closing w) (rampOfCover e.ram b)).mono (List.Subset.refl _)
    (show coversOf e.ram (rampOfCover e.ram b) ⊆ coverAndRamp e.ram b by simp [coverAndRamp])
  have h3 := h1.trans h2
  unfold rampOfCover at h3
  split
  · next v hv => rw [hv] at h3; exact h3
  · next c v hv =>
    rw [hv] at h3
    exact h3.trans ((within_blockCover e v _ b _ _).mono (List.Subset.refl _) (by simp [coverAndRamp]))

theorem within_coverPrewarnEnds (b : Nat) :
    Within [rampOfCover e.ram b] (coverAndRamp e.ram b) w (coverPrewarnEnds e b w) := by
  unfold coverPrewarnEnds
  split
  · exact (within_blockCover e w _ b _ _).mono (List.Subset.refl _) (by simp [coverAndRamp])
  · exact within_requestRaise e w b

theorem within_coverDemanded (us : List Nat) (b : Nat) (st : RampState) : Within us [b] w (coverDemanded e b st w) := by
  unfold coverDemanded
  split
  · exact within_enterPrewarn e w us b
  · exact within_enterBoundary w us b _

theorem within_closeCover (b k : Nat) (d : Demand) :
    Within [rampOfCover e.ram b] (coverAndRamp e.ram b) w (closeCover e b k d w) := by
  have hb : [b] ⊆ coverAndRamp e.ram b := by simp [coverAndRamp]
  have hc : coversOf e.ram (rampOfCover e.ram b) ⊆ coverAndRamp e.ram b := by simp [coverAndRamp]
  have hr := List.Subset.refl [rampOfCover e.ram b]
  unfold closeCover
  extract_lets x ramp fresh w1 w2 st w3
  have h1 : Within [rampOfCover e.ram b] [b] w w1 := within_modBoundary w _ b _
  have h2 : Within [rampOfCover e.ram b] [b] w w2 := by
    simp only [w2]
    split
    · exact h1.trans (within_coverDemanded e _ _ b _)
    · exact h1
  have h3 : Within [rampOfCover e.ram b] [b] w w3 := by
    simp only [w3]
    split
    · exact h2.trans (within_settleSlot _ _ _ b _ k)
    · split
      · exact h2.trans (within_settleSlot _ _ _ b _ k)
      · exact h2.trans (within_modBoundary _ _ b _)
  have h4 := h3.mono hr hb
  split
  · exact h4.trans ((within_coverDemandSet e _ _).mono hr hc)
  · split
    · exact h4.trans (within_coverPrewarnEnds e _ b)
    · exact h4

theorem within_closeOne (b k : Nat) (d : Demand) :
    Within [rampOfCover e.ram b] (coverAndRamp e.ram b) w (closeOne e k d b w) := by
  unfold closeOne
  split
  · exact (within_closeDoor e w _ b k d).mono (List.Subset.refl _) (by simp [coverAndRamp])
  · exact within_closeCover e w b k d

theorem within_closeBoundaryOrder (b k n : Nat) :
    Within [rampOfCover e.ram b] (coverAndRamp e.ram b) w (closeBoundaryOrder e b k n w) := by
  unfold closeBoundaryOrder
  split
  · exact within_complete w _ _ k _ _
  · split
    · exact within_complete w _ _ k _ _
    · exact within_closeOne e w b k _

theorem within_forceOrder (b k : Nat) :
    Within [rampOfCover e.ram b] (coverAndRamp e.ram b) w (forceOrder e b k w) := by
  unfold forceOrder
  have h := within_requestRaise e w b
  split
  · exact within_complete w _ _ k _ _
  · split
    · split
      · next v hv => rw [hv] at h; exact h.trans (within_complete _ _ _ k _ _)
      · next c v hv => rw [hv] at h; exact h.trans (within_complete _ _ _ k _ _)
    all_goals exact within_complete w _ _ k _ _

end Sys2Proof.Machine
end

