-- ==== Sys2Proof/Tests/Slice0.lean ====
section
/-! SUPPORT. Tests of the model, each a named theorem about one step on a small state, with the expected values taken from
the manual; the smoke test of `WellFormed`; and for every statement that has hypotheses a witness that meets them. -/

namespace Sys2Proof.Tests

open Sys2Proof Sys2Proof.Machine

set_option Elab.async false

/-! ## Small states -/

/-- The bytes from an address, listed when they are not 0. -/
def cells (a : Nat) : List Nat → Memory
  | [] => []
  | 0 :: rest => cells (a + 1) rest
  | (n + 1) :: rest => (a, byteOf (n + 1)) :: cells (a + 1) rest

/-- The identity, the version and the configuration words of the header. -/
def header : Memory := State.reset.ram ++ cells 0x0E [1, 2, 4, 3, 3, 0, 12, 41]

/-- A ramp station, a panel, two doors (one at address 48 on line B) and a call station. -/
def stationTable : Memory :=
  cells (stationBase 3) [1, 0, 3, 1] ++ cells (stationBase 4) [2, 0, 2, 0] ++ cells (stationBase 14) [3, 0, 3, 0] ++
    cells (stationBase 20) [4, 0, 3, 0] ++ cells (stationBase 48) [3, 1, 4, 1]

/-- Zone 1 with the call station, the door, the cover and the ramp, and zone 2 with the door. -/
def zone1 : Memory := cells (zoneBase 1) [1, 20, 3, 7, 255, 255, 0, 10]
def zone2 : Memory := cells (zoneBase 2) [2, 0, 3, 255, 255, 255, 255, 0]

/-- Door 3 and cover 7. -/
def door3 : Memory := cells (boundaryBase 3) [1, 1, 2, 14, 255, 20, 5, 15, 8, 40]
def cover7 : Memory := cells (boundaryBase 7) [2, 1, 255, 0, 0, 30, 5, 0, 0, 0]

/-- A number as two bytes. -/
def two (n : Nat) : List Nat := [n % 256, n / 256]

/-- Ramp 0: calibration from 400 at −15.0 to 3600 at 85.0 degrees, stowed at 80.0, landing at 3.0, lower limit −10.0. -/
def ramp0 : Memory :=
  cells (rampBase 0)
    ([3, 4, 1, 255, 7, 0] ++ two 400 ++ two 3600 ++ two (65536 - 150) ++ two 850 ++ two 800 ++ two 30 ++
      two (65536 - 100) ++ two 150 ++ two 40 ++ [5, 4] ++ two 60 ++ two 30 ++ two 60 ++ [8, 10, 20, 41])

/-- Message 12 lasts 8 s with a slow flash, and message 41 lasts 3 s with a fast flash and the tone. -/
def messages : Memory := cells (catalogueBase 12) (two 80 ++ [2, 0]) ++ cells (catalogueBase 41) (two 30 ++ [3, 1])

/-- A configuration with no record but these. -/
def fitted : Memory := header ++ (stationTable ++ (zone1 ++ (zone2 ++ (door3 ++ (cover7 ++ (ramp0 ++ messages))))))

/-- The records of a zone and of a boundary that are not in use, with the codes that name nothing. -/
def noZone (z : Nat) : Memory := cells (zoneBase z + 2) [255, 255, 255, 255, 255]
def noBoundary (b : Nat) : Memory := cells (boundaryBase b + 1) [255, 255, 0, 255]

/-- The records of some indexes in turn. -/
def among (record : Nat → Memory) (first count : Nat) : Memory :=
  ((List.range count).map fun i => record (first + i)).flatten

/-- The fitted configuration with every other record not in use, so that every check of START SERVICE passes. -/
def valid : Memory :=
  header ++ (stationTable ++ (noZone 0 ++ (zone1 ++ (zone2 ++ (among noZone 3 13 ++ (among noBoundary 0 3 ++ (door3 ++
    (among noBoundary 4 3 ++ (cover7 ++ (among noBoundary 8 16 ++ (ramp0 ++
      (among (fun u => cells (rampBase u + 2) [255, 255, 255]) 1 3 ++ messages))))))))))))

/-- The part running with its window enabled and the clock at 5000. -/
def bench : State := { State.reset with window := 1, deckClock := 5000 }

/-- The part in SETUP over a configuration. -/
def setup (m : Memory) : State := { bench with ram := m, heartbeat := 10 }

/-- The part in SERVICE over the fitted configuration, with both lines RUNNING and nothing heard yet. -/
def service : State :=
  { setup fitted with
    partState := .service, lineA := { state := .running, rate := 2 }, lineB := { state := .running, rate := 2 }
    working := tabulate 48 fun i => stationConfig fitted (i + 1)
    catalogue := tabulate 64 fun i => catalogueEntry fitted i
    heartbeatEnd := some 5000 }

/-- A station established with confirmed inputs. -/
def wired (addr : Nat) (inputs : List Bool) (s : State) : State :=
  { s with stations := tmod s.stations (addr - 1) fun x =>
      { x with established := true,
               inputs := tabulate 5 fun i => { confirmed := inputs[i]?, pendingValue := inputs[i]? } } }

/-- Ramp 0 changed. -/
def withRamp (f : Ramp → Ramp) (s : State) : State := { s with ramps := tmod s.ramps 0 f }

/-- A boundary changed. -/
def withBoundary (b : Nat) (f : Boundary → Boundary) (s : State) : State := { s with boundaries := tmod s.boundaries b f }

/-- Line A changed. -/
def withLine (f : Line → Line) (s : State) : State := { s with lineA := f s.lineA }

/-- The calls of zone 1 changed. -/
def withCalls (f : ZoneCalls → ZoneCalls) (s : State) : State := { s with zoneCalls := tmod s.zoneCalls 1 f }

/-- A slot in a hand. -/
def hand (slot : Nat) (h : Hand) (s : State) : State := { s with hands := tput s.hands slot h }

/-- The order of `slot` posted, in an empty slot, with its parameter bytes from offset 8. -/
def posted (slot kind target : Nat) (params : List Nat) (s : State) : State :=
  { hand slot .posted s with
    arrivals := s.arrivals ++ [slot]
    ram := (s.ram.takeWhile fun c => decide (c.1 < slotBase slot)) ++
      (cells (slotBase slot + 2) ([kind, 0, 0, 0, target, 0] ++ params) ++
        s.ram.dropWhile fun c => decide (c.1 < slotBase slot)) }

/-- The state that a command leaves. -/
def after1 (c : Instr) (s : State) : State :=
  match exec c s with
  | .next t => t
  | .fault _ | .refused _ => s

/-- The machine answers a next state. -/
def steps (s : State) : Bool :=
  match step s with
  | .next _ => true
  | .fault _ | .refused _ => false

/-- The ramp station and the panel wired: STOWED, PINS LOCKED, PINS UNLOCKED, TIP CONTACT and PRESSURE OK, and the five
buttons. -/
def equipped (switches buttons : List Bool) (s : State) : State := wired 4 buttons (wired 3 switches s)

/-- No button pressed. -/
def calm : List Bool := [false, false, false, false, false]

/-- The ramp stowed and locked, or off its stow with the pins out. -/
def stowedSwitches : List Bool := [true, true, false, false, true]
def openSwitches : List Bool := [false, false, true, false, true]
def touchingSwitches : List Bool := [false, false, true, true, true]

/-- A character without an error. -/
def chars (l : List Nat) : List RxChar := l.map fun n => charOf (byteOf n)

/-- A cell FRESH with a number, and the summary that goes with it. -/
def withCell (k number : Nat) (s : State) : State :=
  let c := tput s.cells k { fresh := true, number := byteOf number, kind := some .stationSilent, level := 4, repeats := 1 }
  { s with cells := c, freshCounts := freshCountsOf c, nextCell := nextCellOf c, attentionFlag := attentionOf s.ram c }

/-- Ramp 0 in a state with the movement of an order in hand. -/
def moving (st : RampState) (m : Movement) (s : State) : State :=
  hand 5 .taken (withRamp (fun r => { r with state := st, source := .order, slot := 5, movement := m }) s)

/-- Ramp 0 in WARNING. -/
def warning (m : Movement) (s : State) : State :=
  withRamp (fun r => { r with rest := .stowed, prewarnEnd := some 5000, motionWant := true }) (moving .warning m s)

/-- Line A with an exchange with the door station in some phase. -/
def talking (phase : Phase) (test : Option Nat) (s : State) : State :=
  let x : Exchange := { addr := 14, kind := .door, rate := 2, next := {}, test := test, phase := phase }
  withLine (fun y => { y with activity := .exchange x }) s

/-- The record of a bridge call of slot 5 for zone 1. -/
def activeCall : CallRecord :=
  { state := .active, issue := 255, message := 12, priority := 1, source := .order, sourceIndex := 5, zoneSet := 2
    progress := tput (Vector.replicate 16 {}) 1 ⟨0, .pending⟩ }

/-! ## Witnesses: the machine, the host and the resets -/

theorem witness_StepRunsFrontCommand :
    ({ bench with pending := [.posting 31, .withdrawal 31] } : State).pending = .posting 31 :: [.withdrawal 31] := rfl

theorem witness_IdleStepTicks : bench.pending = [] ∧ bench.power ≠ .inReset := by decide

/-- A state that meets every invariant, with an order taken, a cell FRESH and a command that changes it. -/
def crowded : State :=
  { hand 5 .taken (withCell 49 255 bench) with starting := some 5, pending := [.posting 31], partState := .setup }

theorem witness_StepKeepsConsistent : crowded.consistent ∧ steps crowded = true := by
  and_intros <;> decide +kernel

theorem witness_StepKeepsQueuesOrdered :
    (∃ s ∈ [withCalls (fun z => { z with queue := [⟨3, 5⟩, ⟨1, 2⟩], play := .waiting }) service],
      s.queuesOrdered ∧ steps s = true) ∧
      ∃ s ∈ [{ withCalls (fun z => { z with queue := [⟨25, 1⟩], play := .waiting }) service with
          records := tput service.records 25 activeCall, pending := [.lampLingerExpiry 1] }],
        s.queuesOrdered ∧ s.queuesPending ∧ steps s = true := by
  and_intros <;> decide +kernel

theorem witness_StepKeepsPermitsLanded :
    let s := withRamp (fun r => { r with state := .landed, permit := true }) service
    s.permitsLanded ∧ steps s = true := by
  and_intros <;> decide +kernel

/-- The part right after the start of service over the valid configuration (R179), the order given back. -/
def serving : State :=
  { after1 .startTakesEffect { hand 5 .taken (setup valid) with starting := some 5 } with
    ram := valid, working := tabulate 48 fun i => stationConfig valid (i + 1)
    hands := bench.hands, doneCount := 0 }

/-- The same with ramp 0 landed, at the traffic limit, with its permit. -/
def permitted : State :=
  { equipped touchingSwitches calm
      (withRamp (fun r => { r with state := .landed, valve := .float, permit := true, angleValid := true, angle := -60 })
        serving) with
    outputs := tput (tput serving.outputs 2 (.ramp .float .none)) 3 (.panel false false true false)
    pending := [.noReply .a] }

/-- Every check of the configuration passes. -/
theorem valid_passes : configFault valid 10 = none := by decide +kernel

theorem permitted_configChecked : permitted.configChecked :=
  ⟨fun _ => configFault_one_of_configFault valid_passes, fun _ => by decide +kernel, by decide +kernel⟩

theorem witness_StepKeepsPermitsLanded_service :
    permitted.consistent ∧ permitted.configChecked ∧ permitted.permitsLanded ∧ permitted.permitsSound ∧
      permitted.valvesFollow ∧ permitted.outputsFollow ∧ permitted.partState = .service ∧ steps permitted = true :=
  ⟨by decide +kernel, permitted_configChecked, by decide +kernel, by decide +kernel, by decide +kernel,
    by decide +kernel, by decide +kernel, by decide +kernel⟩

theorem witness_StepKeepsViewsAgree :
    (service.viewsAgree ∧ steps service = true) ∧
      (crowded.consistent ∧ crowded.setupUndemanded ∧ crowded.warningSetsAgree ∧ crowded.partState = .setup ∧
        steps crowded = true) ∧
      ∃ s ∈ [{ withBoundary 3 (fun x => { x with state := .prewarn, demand := .emergency }) service with
          fireEmergency := 6, st0 := true, st1 := true }],
        s.consistent ∧ s.setupUndemanded ∧ s.warningSetsAgree ∧ s.partState ≠ .setup ∧ steps s = true := by
  and_intros <;> decide +kernel

theorem witness_StepKeepsOrdersSettled :
    let s := withBoundary 3 (fun x => { x with waiting := [5] })
      { service with zoneOrders := tput service.zoneOrders 5 { inHand := true } }
    s.ordersSettled ∧ steps s = true := by
  and_intros <;> decide +kernel

theorem witness_StepKeepsOrdersHeld : crowded.consistent ∧ crowded.ordersHeld ∧ steps crowded = true := by
  and_intros <;> decide +kernel

theorem witness_HandWritesFollowTheHand :
    (bench.answers ∧ bench.consistent ∧ tget bench.hands 31 = .empty) ∧
      (∃ s ∈ ([posted 31 1 0 [] bench] : List State), s.answers ∧ s.consistent ∧ tget s.hands 31 = .posted) ∧
      (∃ s ∈ ([{ hand 31 .done bench with doneCount := 1 }] : List State), s.answers ∧ s.consistent ∧ tget s.hands 31 = .done) ∧
      (∃ s ∈ ([hand 0 .taken bench] : List State), s.answers ∧ s.consistent ∧ tget s.hands 0 = .taken) ∧
      (∃ addr : BitVec 14, addr.toNat = slotBase 31) ∧ (0 : Word) ≠ 1 ∧ (1 : Word) ≠ 0 := by
  refine ⟨?_, ?_, ?_, ?_, ⟨BitVec.ofNat 14 (slotBase 31), ?_⟩, ?_⟩ <;> decide +kernel

theorem witness_TakeClearsMatchingCell :
    (∃ s ∈ [withCell 49 255 bench],
      s.answers ∧ s.consistent ∧ ((tget s.cells 49).fresh = true ∧ (255 : Byte) = (tget s.cells 49).number) ∧
        ((tget s.cells 49).fresh = true ∧ (0 : Byte) ≠ (tget s.cells 49).number) ∧ (tget s.cells 0).fresh = false) ∧
      (∀ addr ∈ [3, 48], addr ∈ addresses ∧
        levelClass .stationSilent (workingOf service.work.toDeck addr).kind = .fixed) ∧
      (20 ∈ addresses ∧ levelClass .stationSilent (workingOf service.work.toDeck 20).kind = .base ∧
        (workingOf service.work.toDeck 20).level ≠ 0 ∧ (stationOf service.work.toDeck 20).muted = false) ∧
      (∃ s ∈ [{ service with stations := tput service.stations 19 { muted := true, mutedCount := 255 } }],
        (workingOf s.work.toDeck 20).level ≠ 0 ∧ (stationOf s.work.toDeck 20).muted = true) ∧
      (levelClass .lineSwitch (workingOf bench.work.toDeck 1).kind = .base ∧ (workingOf bench.work.toDeck 1).level = 0) ∧
      lineCellLevel service.env.ram .a ≠ 0 ∧ lineCellLevel bench.env.ram .b = 0 ∧
      ({ fresh := true, level := 3 } : AttentionCell).level < 7 := by
  and_intros <;> decide +kernel

theorem witness_ConfigurationWritesFollowOwnership :
    (∀ n ∈ [0x0E, 0x12, 0x14, 0x0900, 0x0EE2, 0x1300, 0x15D6, 0x1600, 0x1BC8, 0x1C00, 0x1F22, 0x2000, 0x23FE],
        (BitVec.ofNat 14 n).getLsbD 0 = false ∧ isConfigWord (BitVec.ofNat 14 n).toNat = true) ∧
      (bench.answers ∧ bench.consistent ∧ bench.partState = .setup ∧ bench.starting = none) ∧
      (∃ s ∈ ([{ bench with partState := .safeHold }] : List State), s.answers ∧ s.consistent ∧ s.partState ≠ .setup) ∧
      crowded.answers ∧ crowded.consistent ∧ crowded.starting ≠ none := by
  and_intros <;> decide +kernel

theorem witness_SlotBodyWritesFollowTheHand :
    (∀ off ∈ [2, 54], 2 ≤ off ∧ off < 56 ∧ off % 2 = 0 ∧ ∃ addr : BitVec 14, addr.toNat = slotBase 31 + off) ∧
      (bench.answers ∧ bench.consistent ∧ tget bench.hands 31 = .empty) ∧
      (∃ s ∈ ([posted 31 1 0 [] bench] : List State), s.answers ∧ s.consistent ∧ tget s.hands 31 = .posted) ∧
      (∃ s ∈ ([{ hand 31 .done bench with doneCount := 1 }] : List State), s.answers ∧ s.consistent ∧ tget s.hands 31 = .done) ∧
      ∃ s ∈ ([hand 31 .taken bench] : List State), s.answers ∧ s.consistent ∧ tget s.hands 31 = .taken := by
  refine ⟨?_, ?_⟩
  swap
  · and_intros <;> decide +kernel
  intro off h
  refine ⟨?_, ?_, ?_, BitVec.ofNat 14 (slotBase 31 + off), ?_⟩ <;> revert off <;> decide

theorem witness_LampAndEnableWritesMoveThePins : bench.answers ∧ bench.consistent := by
  and_intros <;> decide +kernel

theorem witness_PartOwnedWritesAreRefused :
    bench.answers ∧ bench.consistent ∧
      ∀ n ∈ [0, 0x0A, 0x1E, 0x22, 0xFE, 0x0904, 0x0EFE, 0x0F02, 0x121E, 0x1220, 0x12FE, 0x1308, 0x15FE, 0x160A, 0x1BFE,
          0x1C24, 0x1FFE, 0x2400, 0x3FFE],
        (BitVec.ofNat 14 n).getLsbD 0 = false ∧ partOwned (BitVec.ofNat 14 n).toNat := by
  unfold partOwned; and_intros <;> decide +kernel

theorem witness_NewsFlagClearReleasesThePin : bench.answers ∧ bench.consistent ∧ (0xFFFF : Word) ≠ 0 := by
  and_intros <;> decide +kernel

theorem witness_InterruptPinFollowsEnabledFlags :
    bench.power = .running ∧ bench.consistent ∧ (0xFFFD : Word).getLsbD 1 = false := by
  and_intros <;> decide +kernel

theorem witness_DeckClockReadsWhole : bench.answers ∧ bench.consistent := by
  and_intros <;> decide +kernel

theorem witness_WindowEnablesTheExchangeArea :
    bench.power ≠ .inReset ∧ State.reset.window.getLsbD 0 = false := by
  and_intros <;> decide +kernel

theorem witness_IdentReadsTheCodes :
    ({ bench with power := .clearing } : State).power = .clearing ∧ bench.held = [] ∧ bench.answers ∧ bench.consistent := by
  decide +kernel

theorem witness_HeldAccessesAreServedInOrder :
    (∃ s ∈ ([{ bench with bridgeResetting := true, held := [.readClockLow] }] : List State),
      s.power ≠ .inReset ∧ s.window.getLsbD 0 = true ∧ holdsAccesses s = true ∧ s.power = .running ∧
        s.bridgeResetting = true) ∧
      (∃ s ∈ ([{ bench with power := .clearing, held := [.write 0x2000 1] }] : List State),
        s.power = .clearing ∧ s.bridgeResetting = false ∧ s.window.getLsbD 0 = true ∧ holdsAccesses s = true) ∧
      ∃ s ∈ ([{ bench with bridgeResetting := true }] : List State),
      s.held = [] ∧ s.bridgeResetting = true := by
  and_intros <;> decide +kernel

theorem witness_BridgeResetEndsTheOrders :
    let s := { hand 0 .taken (posted 31 1 0 [] bench) with doneCount := 0 }
    s.power = .running ∧ s.bridgeResetting = false ∧ (2 : Word).getLsbD 1 = true ∧ s.memoryCanonical ∧
      tget s.hands 0 = .taken ∧ tget s.hands 31 = .posted ∧ tget s.hands 1 = .empty := by
  and_intros <;> decide +kernel

theorem witness_BridgeResetGivesTheUnitsTheirValues :
    (bench.power = .running ∧ bench.bridgeResetting = false ∧ (0xFFFF : Word).getLsbD 1 = true) ∧
      ∃ s ∈ ([{ bench with bridgeResetting := true }] : List State),
      s.power = .running ∧ s.bridgeResetting = true ∧ s.consistent := by
  and_intros <;> decide +kernel

/-! ## Witnesses: the order unit and the service unit -/

theorem witness_CommonChecksRefuseOrders :
    ((.rampLower, 20) ∈ orderCommands ∧ (posted 0 20 0 [] bench).offers 20 0 ∧ takenIn 20 bench.partState = false) ∧
      ((.rampLower, 20) ∈ orderCommands ∧ (posted 31 20 4 [] service).offers 20 31 ∧ takenIn 20 service.partState = true ∧
        targetInRange 20 (slotTarget (posted 31 20 4 [] service).ram 31) (posted 31 20 4 [] service) = false) ∧
      (255 ∉ knownKinds ∧ (posted 31 255 0 [] service).offers 255 31) ∧
      ((.resume, 3) ∈ orderCommands ∧
        (posted 31 20 4 [] service).arrivals.head?.map (slotKind (posted 31 20 4 [] service).ram) ≠ some 3) := by
  and_intros <;> decide +kernel


theorem witness_StartServiceChecksTheConfiguration :
    ((posted 31 1 0 [] crowded).takes 1 31 ∧ (posted 31 1 0 [] crowded).starting ≠ none) ∧
      ((posted 31 1 0 [] bench).takes 1 31 ∧ bench.starting = none ∧ configFault bench.ram 0 = some (2, 0, 3)) ∧
      ((posted 31 1 0 [] (setup valid)).takes 1 31 ∧ (setup valid).starting = none ∧ (setup valid).heartbeat = 10) := by
  and_intros <;> decide +kernel

theorem witness_StartTakesEffectBeginsService :
    (crowded.power = .running ∧ crowded.memoryCanonical ∧ crowded.ordersHeld ∧ crowded.starting = some 5 ∧
      testInFlight crowded.lineA = false ∧ testInFlight crowded.lineB = false) ∧
      bench.starting = none := by
  and_intros <;> decide +kernel

theorem witness_EnterSetupNeedsQuietDecks :
    ((posted 31 2 0 [] bench).takes 2 31 ∧ bench.partState = .setup) ∧
      (∃ s ∈ ([posted 31 2 0 [] (moving .raising .raise service)] : List State),
        s.takes 2 31 ∧ s.partState ≠ .setup ∧ (tget s.ramps 0).busy = true) ∧
      (∃ s ∈ ([posted 31 2 0 [] (withBoundary 23 (fun x => { x with demand := .normal }) service)] : List State),
        s.takes 2 31 ∧ s.partState ≠ .setup ∧ (∀ u < 4, (tget s.ramps u).busy = false) ∧
          (tget s.boundaries 23).demand ≠ .none ∧ ∀ c < 23, (tget s.boundaries c).demand = .none) ∧
      (∃ s ∈ ([posted 31 2 0 [] (hand 30 .taken service)] : List State),
        s.takes 2 31 ∧ s.partState ≠ .setup ∧ (∀ u < 4, (tget s.ramps u).busy = false) ∧
          (∀ b < 24, (tget s.boundaries b).demand = .none) ∧ tget s.hands 30 = .taken ∧
          ∀ j < 30, tget s.hands j ≠ .taken) ∧
      ∃ s ∈ ([posted 31 2 0 [] service] : List State),
      s.takes 2 31 ∧ s.partState ≠ .setup ∧ (∀ u < 4, (tget s.ramps u).busy = false) ∧
        (∀ b < 24, (tget s.boundaries b).demand = .none) ∧ ∀ k < 32, tget s.hands k ≠ .taken := by
  and_intros <;> decide +kernel

theorem witness_ResumeReturnsToService :
    (∃ s ∈ ([posted 31 3 0 [] { service with partState := .safeHold, heartbeat := 0 }] : List State), s.takes 3 31 ∧ s.heartbeat = 0) ∧
      ∃ s ∈ ([posted 31 3 0 [] { service with partState := .safeHold, heartbeat := 1 }] : List State),
      s.takes 3 31 ∧ s.heartbeat ≠ 0 := by
  and_intros <;> decide +kernel

/-! ## Witnesses: line orders and station orders -/

theorem witness_IsolateAndRestoreMoveTheLine :
    (∃ s ∈ ([posted 31 8 1 [] (withLine (fun x => { x with state := .isolated }) service)] : List State),
      s.takes 8 31 ∧ (lineOf s.toDeck .a).state = .isolated) ∧
      (∃ s ∈ ([posted 31 8 0 [] (withLine (fun x => { x with state := .isolated }) service)] : List State),
        s.takes 8 31 ∧ (lineOf s.toDeck .b).state = .running ∧ (lineOf s.toDeck .a).state = .isolated) ∧
      (∃ s ∈ ([posted 31 8 0 [] { service with lineB := { state := .jammed } }] : List State),
        s.takes 8 31 ∧ (lineOf s.toDeck .b).state = .jammed ∧ (lineOf s.toDeck .a).state ≠ .isolated) ∧
      (∃ s ∈ ([posted 31 9 0 [] (withLine (fun x => { x with state := .isolated }) service)] : List State),
        s.takes 9 31 ∧ (lineOf s.toDeck .a).state = .isolated) ∧
      ∃ s ∈ ([posted 31 9 1 [] service] : List State),
      s.takes 9 31 ∧ (lineOf s.toDeck .b).state ≠ .isolated := by
  and_intros <;> decide +kernel

theorem witness_TestStationRequestsAnExchange :
    (∃ s ∈ ([posted 31 12 48 [2] (setup fitted)] : List State),
      s.takes 12 31 ∧ 1 < slotByte s.ram 31 8) ∧
      (∃ s ∈ ([posted 31 12 48 [1] { hand 5 .taken (setup fitted) with starting := some 5 }] : List State),
        s.takes 12 31 ∧ slotByte s.ram 31 8 = lineNumber .b ∧ s.starting ≠ none) ∧
      (∃ s ∈ ([posted 31 12 14 [0] (hand 5 .taken (talking .replyWait (some 5) (setup fitted)))] : List State),
        s.takes 12 31 ∧ slotByte s.ram 31 8 = lineNumber .a ∧ (lineOf s.toDeck .a).activity ≠ .quiet) ∧
      ∃ s ∈ ([posted 31 12 48 [0] (setup fitted)] : List State),
      s.takes 12 31 ∧ slotByte s.ram 31 8 = lineNumber .a ∧ (lineOf s.toDeck .a).state = .idle ∧
        (lineOf s.toDeck .a).activity = .quiet ∧ s.starting = none ∧ (lineOf s.toDeck .a).tests = [] := by
  and_intros <;> decide +kernel

theorem witness_UnmuteStationClearsTheMute :
    (∃ s ∈ [posted 31 16 48 [] bench], s.offers 16 31 ∧ s.partState = .setup) ∧
      (∀ addr ∈ [0, 49, 47],
        ∃ s ∈ [posted 31 16 addr [] service],
          s.offers 16 31 ∧ s.partState ≠ .setup ∧
            ¬ (1 ≤ addr ∧ addr ≤ 48 ∧ (workingOf s.toDeck addr).kind ≠ .none)) ∧
      ∃ s ∈ [posted 31 16 48 [] service],
        s.offers 16 31 ∧ s.partState ≠ .setup ∧ (workingOf s.toDeck 48).kind ≠ .none := by
  and_intros <;> decide +kernel

/-! ## Witnesses: ramp orders -/

/-- An order for ramp 0 in slot 31, with the ramp wired. -/
def ordered (kind : Nat) (params : List Nat) (switches : List Bool) (s : State) : State :=
  posted 31 kind 0 params (equipped switches calm s)

/-- Ramp 0 changed to a state at rest. -/
def resting (st : RampState) : State := withRamp (fun r => { r with state := st, slot := 255 }) service

/-- What both ramp orders need to start a movement of a control. -/
abbrev starts (s : State) (m : Movement) (ctl : Control) (target : Int) : Prop :=
  interlock s.env 0 true m ctl target s.toDeck = none

theorem witness_RampLowerStartsAWarning :
    (∃ s ∈ [ordered 20 [2, 0] stowedSwitches service], s.takes 20 31 ∧ 1 < slotByte s.ram 31 8) ∧
      (∃ s ∈ [ordered 20 [0, 2] stowedSwitches service], s.takes 20 31 ∧ 1 < slotByte s.ram 31 9) ∧
      (∃ s ∈ [ordered 20 [1, 1] openSwitches (moving .lowering .lowerLand service)],
        s.takes 20 31 ∧ (tget s.ramps 0).busy = true ∧ (tget s.ramps 0).movement.lowers = true) ∧
      (∃ s ∈ [ordered 20 [0, 0] touchingSwitches (resting .landed)],
        s.takes 20 31 ∧ slotByte s.ram 31 8 = 0 ∧ (tget s.ramps 0).state = .landed) ∧
      (∃ s ∈ [ordered 20 [1, 0] touchingSwitches (resting .landed)],
        s.takes 20 31 ∧ slotByte s.ram 31 8 = 1 ∧ (tget s.ramps 0).state = .landed) ∧
      (∃ s ∈ [ordered 20 [0, 0] touchingSwitches (resting .held)],
        s.takes 20 31 ∧ landsAtOnce s.env 0 .lowerLand s.toDeck = true) ∧
      (∃ s ∈ [ordered 20 [0, 0] [true, true, false, false, false] (resting .stowed)],
        s.takes 20 31 ∧ interlock s.env 0 true .lowerLand .bridge 30 s.toDeck = some 6) ∧
      (∃ s ∈ [ordered 20 [0, 0] stowedSwitches (resting .stowed)],
        s.takes 20 31 ∧ starts s .lowerLand .bridge 30 ∧ (tget s.ramps 0).busy = false ∧
          (tget s.ramps 0).wants = false ∧ landsAtOnce s.env 0 .lowerLand s.toDeck = false) ∧
      (∃ s ∈ [ordered 20 [1, 1, 144, 1] openSwitches
          (withRamp (fun r => { r with state := .held, angle := 600, angleValid := true }) service)],
        s.takes 20 31 ∧ clampTarget (rampConfig s.ram 0) (slotAngle s.ram 31 10) = 400 ∧
          starts s .lowerToAngle .atPanel 400) ∧
      (∃ s ∈ [ordered 20 [0, 0] openSwitches (moving .raising .raise service)],
        s.takes 20 31 ∧ starts s .lowerLand .bridge 30 ∧ (tget s.ramps 0).busy = true ∧
          (tget s.ramps 0).state ≠ .warning ∧ (tget s.ramps 0).source = .order) ∧
      ∃ s ∈ [ordered 20 [0, 0] openSwitches (warning .raise service)],
        s.takes 20 31 ∧ starts s .lowerLand .bridge 30 ∧ (tget s.ramps 0).state = .warning ∧
          (tget s.ramps 0).prewarnEnd ≠ none := by
  and_intros <;> decide +kernel

theorem witness_RampRaiseStartsAWarning :
    (∃ s ∈ [ordered 21 [0, 2] openSwitches service], s.takes 21 31 ∧ 1 < slotByte s.ram 31 9) ∧
      (∃ s ∈ [ordered 21 [0, 1] openSwitches (moving .raising .raise service)],
        s.takes 21 31 ∧ (tget s.ramps 0).busy = true ∧ (tget s.ramps 0).movement = .raise) ∧
      (∃ s ∈ [ordered 21 [] stowedSwitches (resting .stowed)], s.takes 21 31 ∧ (tget s.ramps 0).state = .stowed) ∧
      (∃ s ∈ [ordered 21 [] stowedSwitches (resting .held)],
        s.takes 21 31 ∧ (tget s.ramps 0).state = .held ∧ (tget s.ramps 0).busy = false ∧
          fullyStowed s.env 0 s.toDeck = true) ∧
      (∃ s ∈ [ordered 21 [] openSwitches (resting .faulted)],
        s.takes 21 31 ∧ interlock s.env 0 true .raise .bridge 800 s.toDeck = some 2) ∧
      (∃ s ∈ [ordered 21 [0, 1] touchingSwitches (resting .landed)],
        s.takes 21 31 ∧ starts s .raise .atPanel 800 ∧ (tget s.ramps 0).busy = false ∧
          (tget s.ramps 0).wants = false) ∧
      (∃ s ∈ [ordered 21 [] openSwitches (moving .lowering .lowerLand service)],
        s.takes 21 31 ∧ starts s .raise .bridge 800 ∧ (tget s.ramps 0).busy = true ∧ (tget s.ramps 0).state ≠ .warning ∧
          (tget s.ramps 0).source = .order) ∧
      ∃ s ∈ [ordered 21 [] openSwitches (warning .lowerLand service)],
        s.takes 21 31 ∧ starts s .raise .bridge 800 ∧ (tget s.ramps 0).state = .warning ∧
          (tget s.ramps 0).prewarnEnd ≠ none := by
  and_intros <;> decide +kernel

theorem witness_RampStopStopsTheMovement :
    (∃ s ∈ [ordered 22 [] openSwitches (warning .raise service)], s.takes 22 31 ∧ (tget s.ramps 0).state = .warning) ∧
      (∃ s ∈ [ordered 22 [] openSwitches (moving .locking .raise service)],
        s.takes 22 31 ∧ (tget s.ramps 0).state.moves = true) ∧
      (∃ s ∈ [ordered 22 [] openSwitches
          (withRamp (fun r => { r with reason := .deadman }) (moving .held .raise service))],
        s.takes 22 31 ∧ (tget s.ramps 0).deadmanHeld = true) ∧
      (∃ s ∈ [ordered 22 [] stowedSwitches (resting .faulted)],
        s.takes 22 31 ∧ (tget s.ramps 0).state = .faulted ∧ fullyStowed s.env 0 s.toDeck = true) ∧
      (∃ s ∈ [ordered 22 [] openSwitches (resting .faulted)],
        s.takes 22 31 ∧ (tget s.ramps 0).state = .faulted ∧ fullyStowed s.env 0 s.toDeck = false) ∧
      ∃ s ∈ [ordered 22 [] touchingSwitches (resting .landed)],
        s.takes 22 31 ∧ (tget s.ramps 0).state ≠ .warning ∧ (tget s.ramps 0).state.moves = false ∧
          (tget s.ramps 0).deadmanHeld = false ∧ (tget s.ramps 0).state ≠ .faulted := by
  and_intros <;> decide +kernel

theorem witness_RampTrafficSetsThePermit :
    (∃ s ∈ [ordered 23 [0] touchingSwitches (resting .landed)], s.takes 23 31 ∧ slotByte s.ram 31 8 = 0) ∧
      (∃ s ∈ [ordered 23 [1] touchingSwitches (withRamp (fun r => { r with permit := true }) (resting .landed))],
        s.takes 23 31 ∧ slotByte s.ram 31 8 = 1 ∧ (tget s.ramps 0).permit = true) ∧
      (∃ s ∈ [ordered 23 [1] openSwitches (resting .landed)],
        s.takes 23 31 ∧ (tget s.ramps 0).permit = false ∧ trafficCheck s.env 0 s.toDeck = some 13) ∧
      (∃ s ∈ [ordered 23 [1] touchingSwitches
          (withRamp (fun r => { r with angle := 30, angleValid := true, landingAngle := 30 }) (resting .landed))],
        s.takes 23 31 ∧ (tget s.ramps 0).permit = false ∧ trafficCheck s.env 0 s.toDeck = none) ∧
      ∃ s ∈ [ordered 23 [2] touchingSwitches (resting .landed)], s.takes 23 31 ∧ 1 < slotByte s.ram 31 8 := by
  and_intros <;> decide +kernel

/-! ## Witnesses: boundary orders -/

/-- A boundary in a state with a demand. -/
def standing (b : Nat) (st : BoundaryState) (d : Demand) (s : State) : State :=
  withBoundary b (fun x => { x with state := st, demand := d }) s

/-- Eight TAKEN slots that wait at a boundary. -/
def full (b : Nat) (s : State) : State :=
  withBoundary b (fun x => { x with waiting := List.range 8 }) ((List.range 8).foldl (fun s k => hand k .taken s) s)

theorem witness_CloseBoundaryClosesADoor :
    (boundaryConfig fitted 3).isDoor = true ∧
      (∃ s ∈ [posted 31 32 3 [2] service], s.takes 32 31 ∧ 1 < slotByte s.ram 31 8) ∧
      (∃ s ∈ [posted 31 32 3 [1] (full 3 service)],
        s.takes 32 31 ∧ urgencyOf (slotByte s.ram 31 8) = some .emergency ∧ 8 ≤ (tget s.boundaries 3).waiting.length) ∧
      (∃ s ∈ [posted 31 32 3 [] (wired 14 [false, true, false, false, false] (standing 3 .closed .none service))],
        s.takes 32 31 ∧ urgencyOf (slotByte s.ram 31 8) = some .normal ∧ (tget s.boundaries 3).demand = .none ∧
          (tget s.boundaries 3).state = .closed ∧ atClosedEnd s.toDeck (boundaryConfig s.ram 3) = true) ∧
      (∃ s ∈ [posted 31 32 3 [1]
          (withBoundary 3 (fun x => { x with prewarnEnd := some 5000 }) (standing 3 .prewarn .normal service))],
        s.takes 32 31 ∧ (tget s.boundaries 3).demand = .normal ∧ urgencyOf (slotByte s.ram 31 8) = some .emergency ∧
          (tget s.boundaries 3).state = .prewarn ∧ (tget s.boundaries 3).waiting.length < 8 ∧
          (tget s.boundaries 3).prewarnEnd = some 5000 ∧ reached s.deckClock 5000 = true) ∧
      (∃ s ∈ [posted 31 32 3 [] (standing 3 .failed .emergency service)],
        s.takes 32 31 ∧ (tget s.boundaries 3).state = .failed ∧ (tget s.boundaries 3).demand = .emergency) ∧
      (∃ s ∈ [posted 31 32 3 [1] (standing 3 .opened .none service)],
        s.takes 32 31 ∧ (tget s.boundaries 3).demand = .none ∧ (tget s.boundaries 3).state = .opened) ∧
      (∃ s ∈ [posted 31 32 3 [] (standing 3 .closed .none service)],
        s.takes 32 31 ∧ (tget s.boundaries 3).state = .closed ∧
          ¬ ((tget s.boundaries 3).state = .closed ∧ atClosedEnd s.toDeck (boundaryConfig s.ram 3) = true)) ∧
      ∃ s ∈ [posted 31 32 3 [1]
          (withBoundary 3 (fun x => { x with prewarnEnd := some 25000 }) (standing 3 .prewarn .normal service))],
        s.takes 32 31 ∧ (tget s.boundaries 3).demand = .normal ∧ urgencyOf (slotByte s.ram 31 8) = some .emergency ∧
          (tget s.boundaries 3).state = .prewarn ∧ (tget s.boundaries 3).prewarnEnd = some 25000 ∧
          reached s.deckClock 25000 = false ∧ 0 < (boundaryConfig s.ram 3).prewarnShort := by
  and_intros <;> decide +kernel

theorem witness_CloseBoundaryClosesACover :
    (boundaryConfig fitted 7).isCover = true ∧ coverOf fitted (boundaryConfig fitted 7).ramp = some 7 ∧
      (boundaryConfig fitted 7).ramp < 4 ∧
      (∃ s ∈ [posted 31 32 7 [2] service], s.takes 32 31 ∧ 1 < slotByte s.ram 31 8) ∧
      (∃ s ∈ [posted 31 32 7 [1] (full 7 service)], s.takes 32 31 ∧ 8 ≤ (tget s.boundaries 7).waiting.length) ∧
      (∀ st ∈ [RampState.stowed, .faulted, .unknown, .landed, .held],
        ∃ s ∈ [posted 31 32 7 [1] (resting st)],
          s.takes 32 31 ∧ (tget s.boundaries 7).demand = .none ∧ (tget s.ramps 0).state = st) ∧
      (∃ s ∈ [posted 31 32 7 [] (moving .raising .raise service)],
        s.takes 32 31 ∧ (tget s.boundaries 7).demand = .none ∧ (tget s.ramps 0).state.moves = true) ∧
      (∃ s ∈ [posted 31 32 7 [] (withRamp (fun r => { r with reason := .deadman }) (moving .held .raise service))],
        s.takes 32 31 ∧ (tget s.ramps 0).deadmanHeld = true) ∧
      (∃ s ∈ [posted 31 32 7 [] (warning .raise service)],
        s.takes 32 31 ∧ (tget s.boundaries 7).demand = .none ∧ (tget s.ramps 0).state = .warning) ∧
      (∀ st ∈ [BoundaryState.closed, .failed, .blocked, .prewarn],
        ∃ s ∈ [posted 31 32 7 [] (standing 7 st .emergency service)],
          s.takes 32 31 ∧ (tget s.boundaries 7).demand ≠ .none ∧ (tget s.boundaries 7).waiting.length < 8 ∧
            (tget s.boundaries 7).state = st ∧ (tget s.boundaries 7).demand ≠ .normal) ∧
      (∃ s ∈ [posted 31 32 7 [1] (standing 7 .prewarn .normal service)],
        s.takes 32 31 ∧ urgencyOf (slotByte s.ram 31 8) = some .emergency ∧ (tget s.boundaries 7).demand = .normal ∧
          (tget s.boundaries 7).state = .prewarn ∧ (tget s.boundaries 7).prewarnEnd = none) ∧
      (∃ s ∈ [posted 31 32 7 [1] (withBoundary 7 (fun x => { x with prewarnEnd := some 10001 })
          (standing 7 .prewarn .normal service))],
        s.takes 32 31 ∧ (tget s.boundaries 7).prewarnEnd = some 10001 ∧ reached s.deckClock 10001 = false ∧
          0 < (boundaryConfig s.ram 7).prewarnShort) ∧
      ∀ occupied ∈ [true, false],
        ∃ s ∈ [posted 31 32 7 [1] (withBoundary 7 (fun x => { x with prewarnEnd := some 5000, occupancy := occupied })
            (standing 7 .prewarn .normal (equipped openSwitches calm (resting .landed))))],
          s.takes 32 31 ∧ (tget s.boundaries 7).prewarnEnd = some 5000 ∧ reached s.deckClock 5000 = true ∧
            (tget s.boundaries 7).occupancy = occupied := by
  and_intros <;> decide +kernel

theorem witness_CloseZoneDemandsItsBoundaries :
    zoneBoundaries fitted 1 = [3, 7] ∧
      (∃ s ∈ [posted 31 33 1 [2] service], s.takes 33 31 ∧ 1 < slotByte s.ram 31 8) ∧
      (∃ s ∈ [posted 31 33 2 [1] { service with ram := header ++ cells (zoneBase 2) [2, 0, 255, 255, 255, 255, 255, 0] }],
        s.takes 33 31 ∧ urgencyOf (slotByte s.ram 31 8) = some .emergency ∧
          zoneBoundaries s.ram (slotTarget s.ram 31) = []) ∧
      (∃ s ∈ [posted 31 33 1 [1] (full 7 service)],
        s.takes 33 31 ∧
          (zoneBoundaries s.ram 1).find? (fun b => decide (8 ≤ (tget s.boundaries b).waiting.length)) = some 7) ∧
      (∃ s ∈ [posted 31 33 1 [] service],
        s.takes 33 31 ∧ urgencyOf (slotByte s.ram 31 8) = some .normal ∧
          (∀ b ∈ zoneBoundaries s.ram 1, (tget s.boundaries b).waiting.length < 8) ∧
          fittedBoundaries s.ram (zoneBoundaries s.ram 1) ∧ isWaiting (after1 .closeZone s).toDeck 31 = true) ∧
      ∃ s ∈ [posted 31 33 2 [] (wired 14 [false, true, false, false, false] (standing 3 .closed .none service))],
        s.takes 33 31 ∧ (∀ b ∈ zoneBoundaries s.ram 2, (tget s.boundaries b).waiting.length < 8) ∧
          fittedBoundaries s.ram (zoneBoundaries s.ram 2) ∧ isWaiting (after1 .closeZone s).toDeck 31 = false := by
  unfold fittedBoundaries; and_intros <;> decide +kernel

theorem witness_ReleaseBoundaryCancelsItsOrders :
    (∃ s ∈ [posted 31 34 3 [] service], s.takes 34 31 ∧ (tget s.boundaries 3).demand = .none) ∧
      (∃ s ∈ [posted 31 34 3 [] (withBoundary 3 (fun x => { x with waiting := [5] })
          (hand 5 .taken (standing 3 .prewarn .emergency service)))],
        s.takes 34 31 ∧ (tget s.boundaries 3).demand ≠ .none ∧ 5 ∈ (tget s.boundaries 3).waiting ∧
          (tget s.zoneOrders 5).inHand = false ∧ (boundaryConfig s.ram 3).isDoor = true ∧
          (tget s.boundaries 3).state = .prewarn) ∧
      (∃ s ∈ [posted 31 34 3 [] (withBoundary 3 (fun x => { x with waiting := [5] })
          (hand 5 .taken (standing 3 .closing .normal
            { service with zoneOrders := tput service.zoneOrders 5 { inHand := true } })))],
        s.takes 34 31 ∧ (tget s.boundaries 3).demand ≠ .none ∧ (tget s.zoneOrders 5).inHand = true) ∧
      (∀ st ∈ [BoundaryState.closed, .failed, .unknown],
        ∃ s ∈ [posted 31 34 3 [] (standing 3 st .normal service)],
          s.takes 34 31 ∧ (tget s.boundaries 3).demand ≠ .none ∧ (tget s.boundaries 3).state = st) ∧
      ∃ s ∈ [posted 31 34 7 []
          (withRamp (fun r => { r with state := .locking, source := .closure, movement := .raise, slot := 255 })
            (standing 7 .closing .normal service))],
        s.takes 34 31 ∧ (tget s.boundaries 7).demand ≠ .none ∧ (boundaryConfig s.ram 7).isCover = true ∧
          coverOf s.ram (boundaryConfig s.ram 7).ramp = some 7 ∧ (tget s.ramps 0).source = .closure ∧
          (tget s.ramps 0).state = .locking := by
  and_intros <;> decide +kernel

theorem witness_ForceCoverAsksForTheRaise :
    (∃ s ∈ [posted 31 35 3 [] service], s.takes 35 31 ∧ (boundaryConfig s.ram 3).isCover = false) ∧
      (∀ st ∈ [BoundaryState.closing, .closed, .prewarn],
        ∃ s ∈ [posted 31 35 7 [] (standing 7 st .normal service)],
          s.takes 35 31 ∧ (boundaryConfig s.ram 7).isCover = true ∧ (tget s.boundaries 7).state = st) ∧
      (∃ s ∈ [posted 31 35 7 [] (standing 7 .blocked .normal (resting .held))],
        s.takes 35 31 ∧ (tget s.boundaries 7).state = .blocked ∧ (tget s.ramps 0).state ≠ .stowed ∧
          (tget s.ramps 0).source ≠ .closure ∧ closureCheck s.env 0 s.toDeck = some 6) ∧
      (∃ s ∈ [posted 31 35 7 [] (equipped openSwitches calm (standing 7 .blocked .emergency (resting .held)))],
        s.takes 35 31 ∧ (tget s.boundaries 7).state = .blocked ∧ (tget s.boundaries 7).demand ≠ .none ∧
          ¬ raisesAlready (tget s.ramps 0) ∧ closureCheck s.env 0 s.toDeck = none ∧
          fullyStowed s.env 0 s.toDeck = false) ∧
      (∀ st ∈ [RampState.stowed, .raising],
        ∃ s ∈ [posted 31 35 7 [] (standing 7 .blocked .normal
            (withRamp (fun r => { r with state := st, source := if st = .raising then .closure else .none }) service))],
          s.takes 35 31 ∧ (tget s.boundaries 7).state = .blocked ∧ (tget s.boundaries 7).demand ≠ .none ∧
            raisesAlready (tget s.ramps 0)) ∧
      ∃ s ∈ [posted 31 35 7 [] (equipped stowedSwitches calm (standing 7 .blocked .normal (resting .held)))],
        s.takes 35 31 ∧ (tget s.boundaries 7).state = .blocked ∧ ¬ raisesAlready (tget s.ramps 0) ∧
          closureCheck s.env 0 s.toDeck = none ∧ fullyStowed s.env 0 s.toDeck = true ∧ coverOf s.ram 0 = some 7 := by
  unfold raisesAlready; and_intros <;> decide +kernel

/-! ## Witnesses: calls -/

/-- Message 12 with priority 9 and repeat count 20 for some zones. -/
def callOrder (message : Nat) (zones : List Nat) (s : State) : State := posted 31 40 0 ([message, 9, 20, 0] ++ zones) s

theorem witness_CallTakesARecord :
    (∃ s ∈ [callOrder 12 [0, 0] service], s.takes 40 31 ∧ slotWord s.ram 31 12 = 0) ∧
      (∀ message ∈ [0, 64, 13],
        ∃ s ∈ [callOrder message [2, 0] service],
          s.takes 40 31 ∧ slotWord s.ram 31 12 ≠ 0 ∧
            (message = 0 ∨ 63 < message ∨ (tget s.catalogue message).duration = 0)) ∧
      (∃ s ∈ [callOrder 12 [2, 0] { service with records := Vector.replicate 32 { state := .ended } }],
        s.takes 40 31 ∧ ∀ r < 26, (tget s.records r).state ≠ .free) ∧
      (∃ s ∈ [callOrder 12 [2, 128] { service with records := tput service.records 0 { state := .ended } }],
        s.takes 40 31 ∧ slotWord s.ram 31 12 = 0x8002 ∧ (tget s.catalogue 12).duration ≠ 0 ∧
          (tget s.records 1).state = .free ∧ (∀ q < 1, (tget s.records q).state ≠ .free) ∧
          zoneStation s.ram 1 = some 20 ∧ zoneStation s.ram 15 = none ∧
          outcomeMask (tget (after1 .call s).records 1) .pending ≠ 0) ∧
      ∃ s ∈ [callOrder 12 [0, 128] service],
        s.takes 40 31 ∧ outcomeMask (tget (after1 .call s).records 0) .pending = 0 := by
  and_intros <;> decide +kernel

theorem witness_CancelCallWithdrawsTheCall :
    (∃ s ∈ [posted 31 41 0 [] bench], s.offers 41 31 ∧ s.warningSetsAgree ∧ s.partState = .setup) ∧
      (∃ s ∈ [posted 31 41 26 [1] service], s.offers 41 31 ∧ s.warningSetsAgree ∧ s.partState ≠ .setup ∧ 25 < slotTarget s.ram 31) ∧
      (∃ s ∈ [posted 31 41 25 [1] service],
        s.offers 41 31 ∧ s.warningSetsAgree ∧ s.partState ≠ .setup ∧ slotTarget s.ram 31 ≤ 25 ∧ (tget s.records 25).state ≠ .active) ∧
      ∃ s ∈ [posted 31 41 25 [255] (hand 5 .taken
          { service with records := tput service.records 25 activeCall })],
        s.offers 41 31 ∧ s.warningSetsAgree ∧ s.partState ≠ .setup ∧ slotTarget s.ram 31 ≤ 25 ∧
          (tget s.records 25).state = .active ∧
          (tget s.records 25).issue = byteOf (slotByte s.ram 31 8) ∧
          (tget (tget s.records 25).progress 1).outcome = .pending ∧
          (tget (tget s.records 25).progress 15).outcome ≠ .pending := by
  and_intros <;> decide +kernel

/-! ## Witnesses: deck lines -/

/-- The exchange of `talking`. -/
def doorExchange (phase : Phase) (test : Option Nat) : Exchange :=
  { addr := 14, kind := .door, rate := 2, next := {}, test := test, phase := phase }

theorem talking_talks (phase : Phase) (test : Option Nat) (s : State) :
    (lineOf (talking phase test s).toDeck .a).activity = .exchange (doorExchange phase test) := rfl

/-- The characters of the REPLY of the door station with one payload byte, after the sync pair. -/
def doorReply (payload : Nat) : List RxChar := ((frameOf true 14 [byteOf payload]).drop 2).map charOf

/-- A character with its parity bit wrong. -/
def badParity : RxChar := { data := 0x8E, parity := true, stop := true }

theorem witness_IdleLineSendsItsPoll :
    (∃ s ∈ [talking .idleWait none service], s.power = .running ∧ (lineOf s.toDeck .a).releasing = false) ∧
      (∃ s ∈ [withLine (fun x => { x with state := .jammed, activity := .retry }) service],
        (lineOf s.toDeck .a).releasing = false ∧ (lineOf s.toDeck .a).activity = .retry ∧
          chooseSlot (fastRotation s.toDeck .a) (slowRotation s.toDeck .a) (lineOf s.toDeck .a).switched
            (lineOf s.toDeck .a).pattern = some ⟨3, { slowCursor := 3 }, []⟩) ∧
      (∃ s ∈ [withLine (fun x => { x with state := .jammed, activity := .retry }) bench],
        s.power = .running ∧ (lineOf s.toDeck .a).releasing = false ∧ (lineOf s.toDeck .a).activity = .retry ∧
          chooseSlot (fastRotation s.toDeck .a) (slowRotation s.toDeck .a) (lineOf s.toDeck .a).switched
            (lineOf s.toDeck .a).pattern = none) ∧
      ∃ s ∈ [withLine (fun x => { x with state := .jammed, retryAt := 5000 }) service],
        (lineOf s.toDeck .a).state = .jammed ∧ (lineOf s.toDeck .a).activity = .quiet ∧
          reached s.deckClock (lineOf s.toDeck .a).retryAt = true := by
  and_intros <;> decide +kernel

theorem witness_IdleWaitFailureJamsTheLine :
    (∃ s ∈ [{ talking .idleWait none service with stations := tput service.stations 2 { silent := true } }],
      s.power = .running ∧ 3 ∈ stationsOn s.toDeck .a ∧ (stationOf s.toDeck 3).silent = true ∧
        14 ∈ stationsOn s.toDeck .a ∧ (stationOf s.toDeck 14).silent = false ∧
        (lineOf s.toDeck .b).state = .running ∧ ((stationOf s.toDeck 14).on .b).health ≠ .lost ∧
        lineCellLevel s.ram .a ≠ 0) ∧
      (∃ s ∈ [{ talking .idleWait none service with lineB := { state := .isolated } }],
        s.power = .running ∧ (lineOf s.toDeck .b).state ≠ .running ∧ 14 ∈ stationsOn s.toDeck .a) ∧
      (∃ s ∈ [hand 5 .taken (talking .idleWait (some 5) (setup fitted))],
        s.power = .running ∧ s.memoryCanonical ∧ s.ordersHeld) ∧
      ∃ s ∈ [withLine (fun x => { x with state := .jammed, activity := .retry }) service],
        (lineOf s.toDeck .a).activity = .retry ∧ (lineOf s.toDeck .a).state = .jammed := by
  and_intros <;> decide +kernel

theorem witness_ExchangePhasesFollowTheLine :
    (talking (.poll []) none service).power = .running ∧ (talking .replyWait none service).power = .running ∧
      syncHunt (chars [0xC3, 0xC3, 0x3C]) = true ∧ (withLine (fun x => { x with releasing := true }) bench).lineA.releasing = true ∧
      ({ bench with lineB := { releasing := true } } : State).lineB.releasing = true ∧
      (lineOf bench.toDeck .a).releasing = false := by
  and_intros <;> decide +kernel

/-- Every way to end the exchange of the door station. -/
theorem door_exchange_ends :
    endsExchange .a (doorExchange .replyWait none) (.noReply .a) .noReply [] ∧
      endsExchange .a (doorExchange (.reception 500) none) (.truncated .a) .truncated [] ∧
      endsExchange .a (doorExchange (.reception 500) none) (.receptionFault .a [badParity]) .parity [] ∧
      endsExchange .a (doorExchange (.reception 500) none)
        (.replyFrame .a (chars [0x8E, 1, 2, 0, 0])) .crc [2] ∧
      endsExchange .a (doorExchange (.reception 500) none) (.replyFrame .a (doorReply 2)) .good [2] := by
  refine ⟨.inl ⟨rfl, rfl, rfl, rfl⟩, .inr (.inl ⟨rfl, ⟨500, rfl⟩, rfl, rfl⟩),
    .inr (.inr (.inl ⟨[badParity], 500, rfl, rfl, by decide +kernel, rfl⟩)),
    .inr (.inr (.inr ⟨_, 500, 0x8E, 1, 0, rfl, rfl, by decide +kernel, by decide +kernel⟩)),
    .inr (.inr (.inr ⟨_, 500, 0x8E, 1, crc16 [0x8E, 1, 2], rfl, rfl, by decide +kernel, by decide +kernel⟩))⟩

theorem witness_MissedExchangesCountAndSwitch :
    (∃ s ∈ [talking .replyWait none service],
      s.power = .running ∧ (doorExchange .replyWait none).addr ∈ addresses ∧ (doorExchange .replyWait none).test = none ∧
        ((stationOf s.toDeck 14).on .a).health ≠ .lost) ∧
      (∀ other ∈ [LineState.running, .jammed],
        ∃ s ∈ [{ talking .replyWait none service with
            lineB := { state := other }, stations := tput service.stations 13 { onA := { health := .doubtful, missRun := 2 } } }],
          s.power = .running ∧ (missStanding ((stationOf s.toDeck 14).on .a)).health = .lost ∧
            ((stationOf s.toDeck 14).on .a).health ≠ .lost ∧ (stationOf s.toDeck 14).current = .a ∧
            (stationOf s.toDeck 14).silent = false ∧ ((stationOf s.toDeck 14).on .b).health ≠ .lost) ∧
      ExchangeOutcome.noReply ≠ .good := by
  and_intros <;> decide +kernel

/-- The ramp station's exchange, and its REPLY with sequence 15, raw count 400 and PRESSURE OK. -/
def rampExchange : Exchange := { addr := 3, kind := .ramp, rate := 2, next := {}, test := none, phase := .reception 500 }
def rampReply : List Byte := [0xF1, 0x90, 0x10]

theorem witness_GoodRepliesConfirmTheInputs :
    (∃ s ∈ [talking (.reception 500) none service], s.power = .running ∧ (14 ∈ addresses)) ∧
      (∃ s ∈ [withLine (fun x => { x with activity := .exchange rampExchange }) (equipped openSwitches calm (resting .held))],
        s.power = .running ∧ (workingOf s.toDeck 3).kind = .ramp ∧ rampsNaming s.ram (fun c => c.station) 3 = [0] ∧
          (stationOf s.toDeck 3).silent = false ∧ (stationOf s.toDeck 3).established = true ∧
          (tget s.ramps 0).state = .held ∧ (tget s.ramps 0).lastSequence ≠ some (replyValues .ramp rampReply).1 ∧
          atRail (replyValues .ramp rampReply).2 = false) ∧
      receive (((frameOf true 3 rampReply).drop 2).map charOf) =
        .complete 0x83 3 rampReply (crc16 [0x83, 3, 0xF1, 0x90, 0x10]) ∧
      classify .ramp 3 0x83 3 rampReply (crc16 [0x83, 3, 0xF1, 0x90, 0x10]) = .good := by
  and_intros <;> decide +kernel

/-! ### Replies that do a job -/

/-- The exchange of line A with a station, in reception, and the REPLY that ends it. -/
def asked (addr : Nat) (kind : StationKind) : Exchange :=
  { addr := addr, kind := kind, rate := 2, next := {}, test := none, phase := .reception 500 }
def replyOf (addr : Nat) (payload : List Byte) : List RxChar := ((frameOf true addr payload).drop 2).map charOf

/-- Line A waits for the rest of the REPLY of a station whose inputs are confirmed as `before`, and were seen once as
`now`. -/
def awaiting (addr : Nat) (kind : StationKind) (before now : List Bool) (s : State) : State :=
  { withLine (fun x => { x with activity := .exchange (asked addr kind) }) s with
    stations := tmod s.stations (addr - 1) fun x =>
      { x with established := true,
               inputs := tabulate 5 fun i => { confirmed := before[i]?, pendingValue := now[i]? } } }

/-- The premises of `replyTaken` on values, for a REPLY that ends the exchange of `asked`. -/
abbrev heardGood (s : State) (kind : StationKind) (addr : Nat) (payload : List Byte) : Prop :=
  s.power = .running ∧ (lineOf s.toDeck .a).activity = .exchange (asked addr kind) ∧ addr ∈ addresses ∧
    receive (replyOf addr payload) =
      .complete (0x80 ||| byteOf addr) payload.length payload
        (crc16 ([0x80 ||| byteOf addr, byteOf payload.length] ++ payload)) ∧
    classify kind addr (0x80 ||| byteOf addr) payload.length payload
        (crc16 ([0x80 ||| byteOf addr, byteOf payload.length] ++ payload)) = .good ∧
    (workingOf s.toDeck addr).kind = kind

theorem replyTaken_of_heardGood {s : State} {kind : StationKind} {addr : Nat} {payload : List Byte}
    (h : heardGood s kind addr payload) :
    replyTaken s kind .a (asked addr kind) (.replyFrame .a (replyOf addr payload)) payload := by
  obtain ⟨power, exchange, inTable, received, good, isKind⟩ := h
  exact ⟨power, exchange, rfl, inTable, .inr (.inr (.inr ⟨_, 500, _, _, _, rfl, rfl, received, good.symm⟩)), isKind⟩

/-- A GOOD reply of a station, with a further premise on the state. -/
abbrev greeted (s : State) (kind : StationKind) (addr : Nat) (payload : List Byte) (also : State → Prop) : Prop :=
  replyTaken s kind .a (asked addr kind) (.replyFrame .a (replyOf addr payload)) payload ∧ also s

theorem greeted_of_heardGood {s : State} {kind : StationKind} {addr : Nat} {payload : List Byte} {also : State → Prop}
    (h : heardGood s kind addr payload ∧ also s) : greeted s kind addr payload also :=
  ⟨replyTaken_of_heardGood h.1, h.2⟩

/-- The premises of `jobReply` on values. -/
abbrev replies (s : State) (kind : StationKind) (addr : Nat) (payload : List Byte) : Prop :=
  heardGood s kind addr payload ∧ (stationOf s.toDeck addr).silent = false ∧
    (stationOf s.toDeck addr).established = true ∧ s.memoryCanonical ∧ s.ordersHeld

/-- The job of the reply of a station, with a further premise on the state. -/
abbrev job (s : State) (kind : StationKind) (addr : Nat) (payload : List Byte) (also : State → Prop) : Prop :=
  jobReply s kind .a (asked addr kind) (.replyFrame .a (replyOf addr payload)) payload ∧ also s

theorem job_of_replies {s : State} {kind : StationKind} {addr : Nat} {payload : List Byte} {also : State → Prop}
    (h : replies s kind addr payload ∧ also s) : job s kind addr payload also := by
  obtain ⟨⟨heard, spoken, established, memory, orders⟩, rest⟩ := h
  exact ⟨⟨⟨replyTaken_of_heardGood heard, spoken⟩, established, memory, orders⟩, rest⟩

/-- Line A waits for the rest of the REPLY of a station that is not established, SILENT or not. -/
def waking (silent : Bool) (addr : Nat) (kind : StationKind) (before now : List Bool) (s : State) : State :=
  let s := awaiting addr kind before now s
  { s with stations := tmod s.stations (addr - 1) fun x => { x with established := false, silent := silent } }

/-- Five inputs, clear but for one. -/
def only (i : Nat) : List Bool := (List.range 5).map fun k => k == i

/-- The ramp station of ramp 0 about to reply with sequence 15, with switches that change. -/
def switching (before now : List Bool) (s : State) : State :=
  withRamp (fun r => { r with lastSequence := some 15 }) (awaiting 3 .ramp before now s)

theorem one_ramp_names_each_station :
    rampsNaming service.ram (fun x => x.station) 3 = [0] ∧ rampsNaming service.ram (fun x => x.panel) 4 = [0] ∧
      doorsNaming service.ram 14 = [3] ∧ zoneOfStation service.ram 20 = some 1 := by decide +kernel

theorem witness_GoodRepliesConfirmTheInputs_switches :
    job (switching stowedSwitches stowedSwitches (withRamp (fun r => { r with angleValid := true }) service)) .ramp 3
        [0xF1, 0x90, 0x13] (fun s => (tget s.ramps 0).state = .unknown ∧ (tget s.ramps 0).angleValid = true ∧
          (tget s.ramps 0).lastSequence = some (replyValues .ramp [0xF1, 0x90, 0x13]).1 ∧
          changesOf s 3 [0xF1, 0x90, 0x13] = []) ∧
      job (switching stowedSwitches openSwitches (moving .unlocking .lowerLand service)) .ramp 3 [0xF1, 0x90, 0x14]
        (fun s => (tget s.ramps 0).state = .unlocking ∧ (2, true) ∈ changesOf s 3 [0xF1, 0x90, 0x14] ∧
          (3, true) ∉ changesOf s 3 [0xF1, 0x90, 0x14] ∧ reachesTarget (rampConfig s.ram 0) (tget s.ramps 0) = false) ∧
      job (switching stowedSwitches openSwitches (withRamp
          (fun r => { r with angleValid := true, angle := 300, target := 305 }) (moving .unlocking .lowerToAngle service)))
        .ramp 3 [0xF1, 0x90, 0x14]
        (fun s => (2, true) ∈ changesOf s 3 [0xF1, 0x90, 0x14] ∧
          reachesTarget (rampConfig s.ram 0) (tget s.ramps 0) = true) ∧
      job (switching openSwitches touchingSwitches (moving .lowering .lowerLand service)) .ramp 3 [0xF1, 0x90, 0x1C]
        (fun s => (3, true) ∈ changesOf s 3 [0xF1, 0x90, 0x1C]) ∧
      job (switching touchingSwitches openSwitches (resting .landed)) .ramp 3 [0xF1, 0x90, 0x14]
        (fun s => (3, false) ∈ changesOf s 3 [0xF1, 0x90, 0x14]) ∧
      job (switching openSwitches [true, false, true, false, true] (moving .raising .raise service)) .ramp 3
        [0xF1, 0x90, 0x15]
        (fun s => (0, true) ∈ changesOf s 3 [0xF1, 0x90, 0x15] ∧ setAfter s 3 [0xF1, 0x90, 0x15] 1 = false) ∧
      job (switching [true, false, true, false, true] stowedSwitches (moving .locking .raise service)) .ramp 3
        [0xF1, 0x90, 0x13]
        (fun s => (1, true) ∈ changesOf s 3 [0xF1, 0x90, 0x13] ∧ (0, false) ∉ changesOf s 3 [0xF1, 0x90, 0x13]) ∧
      job (switching stowedSwitches openSwitches (resting .stowed)) .ramp 3 [0xF1, 0x90, 0x14]
        (fun s => (0, false) ∈ changesOf s 3 [0xF1, 0x90, 0x14]) := by
  refine ⟨?_, ?_, ?_, ?_, ?_, ?_, ?_, ?_⟩ <;> refine job_of_replies ?_ <;> decide +kernel

/-- The ramp station of ramp 0 about to reply with a new sample and no change of a switch. -/
def sampling (switches : List Bool) (s : State) : State := awaiting 3 .ramp switches switches s

theorem witness_GoodRepliesConfirmTheInputs_samples :
    job (sampling openSwitches (withRamp (fun r => { r with railRun := 2 }) (moving .lowering .lowerLand service))) .ramp 3
        [0xFF, 0xFF, 0x14] (fun s => atRail (replyValues .ramp [0xFF, 0xFF, 0x14]).2 = true ∧
          (tget s.ramps 0).lastSequence ≠ some 15 ∧ changesOf s 3 [0xFF, 0xFF, 0x14] = [] ∧
          (tget s.ramps 0).state.moves = true ∧ (tget s.ramps 0).railRun = 2) ∧
      job (sampling openSwitches (withRamp (fun r => { r with railRun := 2 }) (resting .held))) .ramp 3 [0xF0, 0, 0x14]
        (fun s => atRail (replyValues .ramp [0xF0, 0, 0x14]).2 = true ∧ (tget s.ramps 0).state.moves = false) ∧
      job (sampling openSwitches (withRamp (fun r => { r with target := 800 }) (moving .raising .raise service))) .ramp 3
        [0xF8, 0, 0x14] (fun s => atRail (replyValues .ramp [0xF8, 0, 0x14]).2 = false ∧
          changesOf s 3 [0xF8, 0, 0x14] = [] ∧
          (drivenSample (rampConfig s.ram 0) false false
            (acceptSample (rampConfig s.ram 0) 0x800 s.deckClock (tget s.ramps 0))).2 = .goOn) ∧
      job (sampling openSwitches (withRamp (fun r => { r with target := 362 }) (moving .lowering .lowerToAngle service)))
        .ramp 3 [0xF8, 0, 0x14] (fun s =>
          (drivenSample (rampConfig s.ram 0) false false
            (acceptSample (rampConfig s.ram 0) 0x800 s.deckClock (tget s.ramps 0))).2 = .atTarget) ∧
      job (sampling openSwitches (withRamp (fun r => { r with target := 30 }) (moving .lowering .lowerLand service)))
        .ramp 3 [0xF1, 0x90, 0x14] (fun s =>
          (drivenSample (rampConfig s.ram 0) false false
            (acceptSample (rampConfig s.ram 0) 400 s.deckClock (tget s.ramps 0))).2 = .fault .noLanding) ∧
      job (sampling touchingSwitches (withRamp (fun r => { r with permit := true }) (resting .landed))) .ramp 3
        [0xF8, 0, 0x1C] (fun s => (tget s.ramps 0).state = .landed ∧
          withinTraffic (rampConfig s.ram 0)
            (acceptSample (rampConfig s.ram 0) 0x800 s.deckClock (tget s.ramps 0)) = false ∧
          (driftFlags (rampConfig s.ram 0)
            (acceptSample (rampConfig s.ram 0) 0x800 s.deckClock (tget s.ramps 0))).driftLimit = true ∧
          (driftFlags (rampConfig s.ram 0)
            (acceptSample (rampConfig s.ram 0) 0x800 s.deckClock (tget s.ramps 0))).driftWarned = true ∧
          (tget s.ramps 0).driftWarned = false ∧ heeded s 3) := by
  unfold heeded
  refine ⟨?_, ?_, ?_, ?_, ?_, ?_⟩ <;> refine job_of_replies ?_ <;> decide +kernel

/-- A new sample and a change of a switch in one reply: TIP CONTACT with a sample that goes on, TIP CONTACT lost with the
third rail sample, and PINS UNLOCKED with a sample. -/
theorem witness_GoodRepliesConfirmTheInputs_both :
    job (awaiting 3 .ramp openSwitches touchingSwitches
        (withRamp (fun r => { r with target := 30 }) (moving .lowering .lowerLand service))) .ramp 3 [0xF3, 0x20, 0x1C]
        (fun s => newSample s 0 [0xF3, 0x20, 0x1C] ∧ ¬ sampleEnds s 0 3 [0xF3, 0x20, 0x1C] ∧
          (sampleLeft s 0 3 [0xF3, 0x20, 0x1C]).state = .lowering ∧ (3, true) ∈ changesOf s 3 [0xF3, 0x20, 0x1C]) ∧
      job (awaiting 3 .ramp touchingSwitches openSwitches
          (withRamp (fun r => { r with railRun := 2, permit := true }) (resting .landed))) .ramp 3 [0xFF, 0xFF, 0x14]
        (fun s => newSample s 0 [0xFF, 0xFF, 0x14] ∧ ¬ sampleEnds s 0 3 [0xFF, 0xFF, 0x14] ∧
          (sampleLeft s 0 3 [0xFF, 0xFF, 0x14]).state = .landed ∧ (sampleLeft s 0 3 [0xFF, 0xFF, 0x14]).permit = false ∧
          (3, false) ∈ changesOf s 3 [0xFF, 0xFF, 0x14]) ∧
      job (awaiting 3 .ramp stowedSwitches openSwitches (moving .unlocking .lowerLand service)) .ramp 3 [0xF3, 0x20, 0x14]
        (fun s => newSample s 0 [0xF3, 0x20, 0x14] ∧ ¬ sampleEnds s 0 3 [0xF3, 0x20, 0x14] ∧
          (sampleLeft s 0 3 [0xF3, 0x20, 0x14]).state = .unlocking ∧ (2, true) ∈ changesOf s 3 [0xF3, 0x20, 0x14]) := by
  unfold newSample sampleEnds newSample; refine ⟨?_, ?_, ?_⟩ <;> refine job_of_replies ?_ <;> decide +kernel

/-- The premises of a reply of the ramp station that is not established, with a new sample that ends no movement. -/
abbrev wakes (s : State) (payload : List Byte) (all : Bool) : Prop :=
  (stationOf s.toDeck 3).established = false ∧ s.memoryCanonical ∧ s.ordersHeld ∧
    rampsNaming s.ram (fun x => x.station) 3 = [0] ∧ allConfirmed .ramp (inputsAfter s 3 payload) = all ∧
    newSample s 0 payload ∧ ¬ sampleEnds s 0 3 payload

theorem witness_GoodRepliesConfirmTheInputs_established :
    greeted (waking false 3 .ramp [] stowedSwitches service) .ramp 3 [0xF1, 0x90, 0x13]
        (fun s => wakes s [0xF1, 0x90, 0x13] true ∧ (sampleLeft s 0 3 [0xF1, 0x90, 0x13]).state = .unknown ∧
          (sampleLeft s 0 3 [0xF1, 0x90, 0x13]).angleValid = true ∧ setAfter s 3 [0xF1, 0x90, 0x13] 0 = true ∧
          setAfter s 3 [0xF1, 0x90, 0x13] 1 = true) ∧
      greeted (waking false 3 .ramp [] stowedSwitches service) .ramp 3 [0xFF, 0xFF, 0x13]
        (fun s => wakes s [0xFF, 0xFF, 0x13] true ∧ (sampleLeft s 0 3 [0xFF, 0xFF, 0x13]).angleValid = false) ∧
      greeted (waking false 3 .ramp [] openSwitches (resting .stowed)) .ramp 3 [0xF1, 0x90, 0x14]
        (fun s => wakes s [0xF1, 0x90, 0x14] true ∧ (sampleLeft s 0 3 [0xF1, 0x90, 0x14]).state = .stowed ∧
          setAfter s 3 [0xF1, 0x90, 0x14] 0 = false) ∧
      greeted (waking false 3 .ramp [] openSwitches (resting .landed)) .ramp 3 [0xF1, 0x90, 0x14]
        (fun s => wakes s [0xF1, 0x90, 0x14] true ∧ (sampleLeft s 0 3 [0xF1, 0x90, 0x14]).state = .landed) := by
  unfold wakes newSample sampleEnds newSample
  refine ⟨?_, ?_, ?_, ?_⟩ <;> refine greeted_of_heardGood ?_ <;> decide +kernel

theorem witness_GoodRepliesConfirmTheInputs_back :
    ∀ st ∈ [RampState.unknown, .landed, .held], ∀ silent ∈ [true, false],
      greeted (waking silent 3 .ramp [] [] (resting st)) .ramp 3 [0xF1, 0x90, 0x1C]
        (fun s => wakes s [0xF1, 0x90, 0x1C] false ∧ (stationOf s.toDeck 3).silent = silent ∧ heeded s 3 ∧
          (tget s.ramps 0).state.drives = false) := by
  intro st h silent g
  refine greeted_of_heardGood ?_
  revert silent st
  unfold wakes newSample sampleEnds newSample heeded
  decide +kernel

/-- The panel of ramp 0 about to reply, with the ramp station's switches. -/
def pressing (before now switches : List Bool) (s : State) : State := wired 3 switches (awaiting 4 .panel before now s)

theorem witness_RampStopStopsTheMovement_panel :
    (∀ st ∈ [RampState.unlocking, .lowering, .raising, .locking, .warning],
      job (pressing calm [false, false, false, true, false] openSwitches (moving st .raise service)) .panel 4 [0x08]
        (fun s => (3, true) ∈ changesOf s 4 [0x08] ∧ (tget s.ramps 0).busy = true)) ∧
      job (pressing calm [false, false, false, true, false] touchingSwitches
          (withRamp (fun r => { r with permit := true, request := .raise }) (resting .landed))) .panel 4 [0x08]
        (fun s => (3, true) ∈ changesOf s 4 [0x08] ∧ (tget s.ramps 0).busy = false ∧
          (tget s.ramps 0).deadmanHeld = false ∧ (0, true) ∉ changesOf s 4 [0x08] ∧ (1, true) ∉ changesOf s 4 [0x08]) := by
  refine ⟨fun st h => ?_, ?_⟩
  · refine job_of_replies ?_
    revert st
    decide +kernel
  · refine job_of_replies ?_
    decide +kernel

/-- Ramp 0 held by its deadman while it moved by an order. -/
def deadmanHold (st : RampState) (m : Movement) : State :=
  withRamp (fun r => { r with reason := .deadman, resume := some st, control := .atPanel }) (moving .held m service)

theorem witness_RampTimersEndTheirMovements_deadman :
    job (pressing [true, false, true, false, false] [true, false, false, false, false] openSwitches
        (withRamp (fun r => { r with control := .atPanel }) (moving .lowering .lowerLand service))) .panel 4 [0x01]
      (fun s => (3, true) ∉ changesOf s 4 [0x01] ∧ (tget s.boundaries 7).state ≠ .blocked ∧
        (tget s.ramps 0).state.moves = true ∧ (tget s.ramps 0).control = .atPanel ∧ (2, false) ∈ changesOf s 4 [0x01] ∧
        heeded s 4) ∧
      job (pressing [true, false, false, false, false] [true, false, true, false, false] openSwitches
          (deadmanHold .lowering .lowerLand)) .panel 4 [0x05]
        (fun s => (tget s.ramps 0).deadmanHeld = true ∧ (tget s.ramps 0).busy = true ∧ setAfter s 4 [0x05] 0 = true ∧
          setAfter s 4 [0x05] 2 = true ∧ (2, true) ∈ changesOf s 4 [0x05] ∧
          interlockInHand s.env 0 { s.toDeck with stations := (after1 (.replyFrame .a (replyOf 4 [0x05])) s).stations } = none ∧
          (tget s.ramps 0).resume = some .lowering) ∧
      job (pressing [true, false, false, false, false] [true, false, true, false, false]
          [false, false, true, false, false] (deadmanHold .lowering .lowerLand)) .panel 4 [0x05]
        (fun s => (tget s.ramps 0).deadmanHeld = true ∧ (2, true) ∈ changesOf s 4 [0x05] ∧
          interlockInHand s.env 0 { s.toDeck with stations := (after1 (.replyFrame .a (replyOf 4 [0x05])) s).stations } =
            some 6) := by
  unfold heeded; refine ⟨?_, ?_, ?_⟩ <;> refine job_of_replies ?_ <;> decide +kernel

/-- Cover 7 BLOCKED with a cause, its panel held as occupied. -/
def blocked (cause : BlockCause) (s : State) : State :=
  withBoundary 7
    (fun x => { x with state := .blocked, demand := .normal, blockCause := cause, occupancy := true }) s

theorem witness_RampTimersEndTheirMovements_blocked :
    ∀ cause ∈ [BlockCause.occupied, .rampStopped],
      job (pressing [false, false, false, false, cause == .occupied]
          [true, false, false, false, cause == .occupied] openSwitches (blocked cause (resting .held))) .panel 4
          [if cause = .occupied then 0x11 else 0x01]
        (fun s => coverOf s.ram 0 = some 7 ∧
          ¬ occupancyClears s 7 4 [if cause = .occupied then 0x11 else 0x01] ∧ (tget s.ramps 0).busy = false ∧
          (0, true) ∈ changesOf s 4 [if cause = .occupied then 0x11 else 0x01]) := by
  intro cause h
  refine job_of_replies ?_
  revert cause
  unfold occupancyClears
  decide +kernel

/-- The bench configuration with the answer mode LOCAL of ramp 0. -/
def answering (mode : Nat) (s : State) : State := { s with ram := memWrite s.ram (rampBase 0 + 5) (byteOf mode) }

theorem witness_RampTimersEndTheirMovements_requests :
    (∀ mode ∈ [0, 1], ∀ part ∈ [PartState.service, .safeHold],
      job { answering mode (pressing calm [true, false, false, false, false] stowedSwitches (resting .stowed)) with
          partState := part } .panel 4 [0x01]
        (fun s => (3, true) ∉ changesOf s 4 [0x01] ∧ (tget s.ramps 0).busy = false ∧ (0, true) ∈ changesOf s 4 [0x01] ∧
          (1, true) ∉ changesOf s 4 [0x01] ∧ mayStart true (tget s.ramps 0).state = true ∧ heeded s 4 ∧
          (tget s.ramps 0).request = .none ∧ (rampConfig s.ram 0).answerMode = mode ∧
          rampsNaming s.ram (fun x => x.panel) 4 = [0] ∧
          interlock s.env 0 true .lowerLand .atPanel 30
            { s.toDeck with stations := (after1 (.replyFrame .a (replyOf 4 [0x01])) s).stations } = none)) ∧
      job (pressing calm [false, true, false, false, false] stowedSwitches (resting .stowed)) .panel 4 [0x02]
        (fun s => (1, true) ∈ changesOf s 4 [0x02] ∧ mayStart false (tget s.ramps 0).state = false) ∧
      job (pressing calm [false, true, false, false, false] openSwitches
          (withRamp (fun r => { r with request := .lower }) (resting .held))) .panel 4 [0x02]
        (fun s => mayStart false (tget s.ramps 0).state = true ∧ (tget s.ramps 0).request ≠ .none) := by
  refine ⟨fun mode h part g => ?_, ?_, ?_⟩
  · refine job_of_replies ?_
    revert part mode
    unfold heeded
    decide +kernel
  all_goals refine job_of_replies ?_
  all_goals decide +kernel

theorem witness_RampTimersEndTheirMovements_established :
    (∀ silent ∈ [true, false],
      greeted (waking silent 4 .panel [] [] (resting .held)) .panel 4 [0x01]
        (fun s => (stationOf s.toDeck 4).established = false ∧ rampsNaming s.ram (fun x => x.panel) 4 = [0] ∧
          allConfirmed .panel (inputsAfter s 4 [0x01]) = false)) ∧
      (∀ occupied ∈ [true, false], ∀ payload ∈ ([[0x01], [0x11]] : List (List Byte)),
        greeted (waking false 4 .panel [] [true, false, false, false, payload == [0x11]]
            (withBoundary 7 (fun x => { x with occupancy := occupied }) (resting .held))) .panel 4 payload
          (fun s => (stationOf s.toDeck 4).established = false ∧ allConfirmed .panel (inputsAfter s 4 payload) = true ∧
            (tget s.ramps 0).state ≠ .warning ∧ coverOf s.ram 0 = some 7 ∧ ¬ occupancyClears s 7 4 payload)) ∧
      greeted { waking false 4 .panel [] (only 3) (resting .landed) with ram := memWrite fitted (rampBase 0 + 4) 255 }
        .panel 4 [0x08]
        (fun s => rampsNaming s.ram (fun x => x.panel) 4 = [0] ∧ allConfirmed .panel (inputsAfter s 4 [0x08]) = true ∧
          coverOf s.ram 0 = none) := by
  unfold occupancyClears
  refine ⟨fun silent h => ?_, fun occupied h payload g => ?_, ?_⟩ <;> refine greeted_of_heardGood ?_
  · revert silent; decide +kernel
  · revert payload occupied; decide +kernel
  · decide +kernel

/-- The door station of boundary 3 about to reply. -/
def doorAwaits (before now : List Bool) (s : State) : State := awaiting 14 .door before now s

theorem witness_DoorTimersCloseOrFail_reports :
    (∀ st ∈ [BoundaryState.closed, .closing],
      job (doorAwaits calm (only 0) (standing 3 st .none service)) .door 14 [0x01]
        (fun s => changesOf s 14 [0x01] = [(0, true)] ∧ (tget s.boundaries 3).state = st)) ∧
      (∀ st ∈ [BoundaryState.prewarn, .closing, .reversing, .passage, .opened], ∀ d ∈ [Demand.none, .normal],
        job (doorAwaits calm (only 1) (withBoundary 3 (fun x => { x with waiting := [5] })
            (hand 5 .taken (standing 3 st d service)))) .door 14 [0x02]
          (fun s => changesOf s 14 [0x02] = [(1, true)] ∧ (tget s.boundaries 3).state = st ∧
            (tget s.boundaries 3).demand = d)) ∧
      job (doorAwaits (only 1) calm (standing 3 .closed .normal service)) .door 14 [0]
        (fun s => changesOf s 14 [0] = [(1, false)]) ∧
      (∀ count ∈ [0, 1, 2, 3],
        job (doorAwaits calm (only 2) (withBoundary 3 (fun x => { x with obstructions := count })
            (standing 3 .closing .normal service))) .door 14 [0x04]
          (fun s => changesOf s 14 [0x04] = [(2, true)] ∧ (tget s.boundaries 3).obstructions = count ∧ heeded s 14)) ∧
      ∀ st ∈ [BoundaryState.closing, .reversing, .closed, .passage, .failed], ∀ d ∈ [Demand.none, .normal],
        job (doorAwaits (only 1) (only 3) (standing 3 st d service)) .door 14 [0x08]
          (fun s => (3, true) ∈ changesOf s 14 [0x08] ∧ (0, true) ∉ changesOf s 14 [0x08] ∧
            (1, true) ∉ changesOf s 14 [0x08] ∧ (2, true) ∉ changesOf s 14 [0x08] ∧ (tget s.boundaries 3).state = st ∧
            (tget s.boundaries 3).demand = d) := by
  unfold heeded
  refine ⟨fun st h => ?_, fun st h d g => ?_, ?_, fun count h => ?_, fun st h d g => ?_⟩ <;> refine job_of_replies ?_
  · revert st; decide +kernel
  · revert d st; decide +kernel
  · decide +kernel
  · revert count; decide +kernel
  · revert d st; decide +kernel

/-- The door station not yet established, every input but CLOSED END confirmed. -/
def unestablished (d : Demand) : State :=
  waking false 14 .door [false] [false, true, false, false, false] (standing 3 .unknown d service)

theorem witness_DoorTimersCloseOrFail_established :
    ∀ d ∈ [Demand.none, .normal],
      goodReply (unestablished d) .door .a (asked 14 .door) (.replyFrame .a (replyOf 14 [0x02])) [0x02] ∧
        (unestablished d).memoryCanonical ∧ (unestablished d).ordersHeld ∧
        (stationOf (unestablished d).toDeck 14).established = false ∧
        allConfirmed .door (inputsAfter (unestablished d) 14 [0x02]) = true ∧
        (tget (unestablished d).boundaries 3).state = .unknown ∧ setAfter (unestablished d) 14 [0x02] 1 = true := by
  intro d h
  refine ⟨⟨replyTaken_of_heardGood ?_, ?_⟩, ?_⟩ <;> revert d <;> decide +kernel

theorem witness_DoorTimersCloseOrFail_unconfirmed :
    ∀ silent ∈ [true, false],
      greeted (waking silent 14 .door [] [] (standing 3 .unknown .normal service)) .door 14 [0x02]
        (fun s => (stationOf s.toDeck 14).established = false ∧ allConfirmed .door (inputsAfter s 14 [0x02]) = false) := by
  intro silent h
  refine greeted_of_heardGood ?_
  revert silent
  decide +kernel

/-- The call of message 12 at the head of zone 1, playing, with the count at its start 3. -/
def playing (play : PlayState) (repeats : Nat) : State :=
  let s := withCalls (fun z => { z with queue := [⟨25, 1⟩], play := play, known := true, startCount := 3 }) (hand 5 .taken service)
  { s with records := tput s.records 25 { activeCall with repeats := repeats } }

/-- A ramp's warning call at the head of zone 1, playing. -/
def warned : State :=
  let s := withCalls (fun z => { z with queue := [⟨26, 5⟩], play := .playing, known := true, startCount := 3 })
    (warning .raise service)
  { s with records := tput s.records 26 { activeCall with message := 41, source := .ramp, sourceIndex := 0, priority := 5 } }

/-- The call station of zone 1 about to reply, with AMPLIFIER FAULT as before or now set. -/
def callAwaits (fault : Bool) (s : State) : State := awaiting 20 .call [false] [fault] s

theorem witness_CallTimersMoveTheQueue_replies :
    (∀ play ∈ [PlayState.waiting, .playing, .pause],
      job (callAwaits false (playing play 2)) .call 20 [12, 3]
        (fun s => s.warningSetsAgree ∧ (tget s.zoneCalls 1).play = play ∧ queueOrdered (tget s.zoneCalls 1).queue ∧
          ((replyValues .call [12, 3]).2 = (tget s.zoneCalls 1).startCount) ∧
          (changesOf s 20 [12, 3]).contains (0, true) = false)) ∧
      (∀ repeats ∈ [0, 1, 2],
        job (callAwaits false (playing .playing repeats)) .call 20 [12, 4]
          (fun s => s.warningSetsAgree ∧ (replyValues .call [12, 4]).2 ≠ (tget s.zoneCalls 1).startCount ∧
            (replyValues .call [12, 4]).1 = (tget s.records 25).message ∧ heardRamp s.ram 1 25 = none)) ∧
      job (callAwaits false warned) .call 20 [41, 4]
        (fun s => s.warningSetsAgree ∧ (replyValues .call [41, 4]).1 = (tget s.records 26).message ∧
          heardRamp s.ram 1 26 = some 0 ∧ (tget s.ramps 0).state = .warning ∧ (tget s.ramps 0).heard = false ∧
          (tget s.ramps 0).prewarnEnd ≠ none) ∧
      (∀ play ∈ [PlayState.playing, .idle],
        job (callAwaits true (if play = .idle then withCalls (fun z => { z with play := .idle }) service else playing play 0))
          .call 20 [12, 0x83]
          (fun s => s.warningSetsAgree ∧ (tget s.zoneCalls 1).play = play ∧
            (changesOf s 20 [12, 0x83]).contains (0, true) = true ∧ heeded s 20)) := by
  unfold heeded
  refine ⟨fun play h => ?_, fun repeats h => ?_, ?_, fun play h => ?_⟩ <;> refine job_of_replies ?_
  · revert play; decide +kernel
  · revert repeats; decide +kernel
  · decide +kernel
  · revert play; decide +kernel

theorem witness_CallTimersMoveTheQueue_back :
    ∀ entries ∈ ([[], [⟨25, 1⟩]] : List (List QueueEntry)),
      greeted (waking true 20 .call [] [] (withCalls (fun z => { z with queue := entries, known := false }) (playing .hold 2)))
        .call 20 [12, 3]
        (fun s => (stationOf s.toDeck 20).silent = true ∧ (stationOf s.toDeck 20).established = false ∧
          setAfter s 20 [12, 3] 0 = false ∧ s.warningSetsAgree ∧ zoneOfStation s.ram 20 = some 1 ∧
          (tget s.zoneCalls 1).play = .hold ∧ (tget s.zoneCalls 1).queue = entries) := by
  intro entries h
  refine greeted_of_heardGood ?_
  revert entries
  decide +kernel

/-! ### Stations that fall SILENT -/

/-- Line B is in a state, and line A waits for the REPLY of a station that the next miss loses there. -/
def losing (addr : Nat) (kind : StationKind) (other : LineState) (s : State) : State :=
  { withLine (fun x => { x with activity := .exchange { asked addr kind with phase := .replyWait } }) s with
    lineB := { state := other }
    stations := tmod s.stations (addr - 1) fun x => { x with onA := { health := .doubtful, missRun := 2 } } }

/-- The station of `losing` falls SILENT at the miss, with a further premise on the state. -/
abbrev missSilences (s : State) (addr : Nat) (kind : StationKind) (also : State → Prop) : Prop :=
  s.power = .running ∧ (lineOf s.toDeck .a).activity = .exchange { asked addr kind with phase := .replyWait } ∧
    addr ∈ addresses ∧ (workingOf s.toDeck addr).kind = kind ∧ s.memoryCanonical ∧ s.ordersHeld ∧
    fellSilent s (after1 (.noReply .a) s) addr ∧ also s

theorem witness_MissedExchangesCountAndSwitch_ramp :
    (∀ st ∈ [RampState.unlocking, .lowering, .raising, .locking, .warning],
      missSilences (losing 3 .ramp .isolated (moving st .raise service)) 3 .ramp
        (fun s => rampsNaming s.ram (fun c => c.station) 3 = [0] ∧ (tget s.ramps 0).state = st ∧
          (tget s.ramps 0).source = .order ∧ warningStation s.env 0 = some 20 ∧
          ¬ fellSilent s (after1 (.noReply .a) s) 20)) ∧
      missSilences (losing 3 .ramp .jammed (deadmanHold .lowering .lowerLand)) 3 .ramp
        (fun s => (tget s.ramps 0).deadmanHeld = true) ∧
      missSilences (losing 3 .ramp .isolated (withRamp (fun r => { r with permit := true }) (resting .landed))) 3 .ramp
        (fun s => (tget s.ramps 0).state = .landed ∧ (tget s.ramps 0).deadmanHeld = false) := by
  unfold missSilences fellSilent; and_intros <;> decide +kernel

theorem witness_MissedExchangesCountAndSwitch_panel :
    (∀ control ∈ [Control.atPanel, .bridge],
      missSilences (losing 4 .panel .isolated (withRamp (fun r => { r with control := control }) (moving .lowering .lowerLand service)))
        4 .panel
        (fun s => rampsNaming s.ram (fun c => c.panel) 4 = [0] ∧ (tget s.ramps 0).state.moves = true ∧
          (tget s.ramps 0).control = control ∧ ¬ fellSilent s (after1 (.noReply .a) s) (rampConfig s.ram 0).station ∧
          coverOf s.ram 0 = some 7 ∧ (tget s.boundaries 7).occupancy = false ∧ coverOf s.ram 0 ≠ some 3)) ∧
      missSilences (losing 4 .panel .isolated (withRamp (fun r => { r with request := .lower }) (resting .stowed))) 4 .panel
        (fun s => (tget s.ramps 0).request ≠ .none ∧ (tget s.ramps 0).state.moves = false) := by
  unfold missSilences fellSilent; and_intros <;> decide +kernel

theorem witness_MissedExchangesCountAndSwitch_door :
    ∀ st ∈ [BoundaryState.closing, .unknown],
      missSilences (losing 14 .door .isolated (withBoundary 3 (fun x => { x with waiting := [5] })
          (hand 5 .taken (standing 3 st .normal service)))) 14 .door
        (fun s => doorsNaming s.ram 14 = [3] ∧ (∀ u < 4, coverOf s.ram u ≠ some 3) ∧ (tget s.boundaries 3).state = st ∧
          5 ∈ (tget s.boundaries 3).waiting) := by
  unfold missSilences fellSilent; decide +kernel

theorem witness_MissedExchangesCountAndSwitch_call :
    missSilences (losing 20 .call .isolated (playing .playing 2)) 20 .call
        (fun s => s.warningSetsAgree ∧ zoneOfStation s.ram 20 = some 1 ∧ (tget s.zoneCalls 1).play = .playing ∧
          heeded s 20 ∧ silencedRamps s.env 1 s.toDeck = []) ∧
      missSilences (losing 20 .call .isolated warned) 20 .call
        (fun s => s.warningSetsAgree ∧ 0 ∈ silencedRamps s.env 1 s.toDeck ∧ (tget s.ramps 0).state = .warning ∧
          (tget s.ramps 0).heard = false ∧ (tget s.ramps 0).source = .order) := by
  unfold missSilences fellSilent heeded; and_intros <;> decide +kernel

theorem witness_MissedExchangesCountAndSwitch_heard :
    ∃ s ∈ [losing 14 .door .running service],
      ¬ fellSilent s (after1 (.noReply .a) s) 14 ∧ s.warningSetsAgree ∧
        (missStanding ((stationOf s.toDeck 14).on .a)).health = .lost ∧ heeded s 14 := by
  unfold fellSilent heeded; decide +kernel

/-- The part with work for every station of line A, whose other line is in a state: a movement at the panel, a door that
closes and a play. -/
def laden (other : LineState) : State :=
  { withBoundary 3 (fun x => { x with state := .closing, demand := .normal, waiting := [6] })
      (hand 6 .taken (withCalls (fun z => { z with queue := [⟨25, 1⟩], play := .playing, known := true })
        (withRamp (fun r => { r with control := .atPanel }) (moving .lowering .lowerLand service)))) with
    lineB := { state := other } }

/-- Every station of line A falls SILENT between two states. -/
abbrev allFall (s t : State) : Prop :=
  s.memoryCanonical ∧ s.ordersHeld ∧ (∀ n ∈ [3, 4, 14, 20], n ∈ addresses ∧ fellSilent s t n) ∧
    (∀ u < 4, coverOf s.ram u ≠ some 3) ∧ (tget s.ramps 0).state.moves = true ∧ (tget s.ramps 0).control = .atPanel

theorem witness_IdleWaitFailureJamsTheLine_silence :
    (∃ s ∈ [talking .idleWait none (laden .isolated)],
      (lineOf s.toDeck .a).activity = .exchange (doorExchange .idleWait none) ∧ allFall s (after1 (.idleWaitTimeout .a) s)) ∧
      (∃ s ∈ [wired 3 openSwitches
          { talking .idleWait none (laden .running) with stations := tput service.stations 2 { onB := jamStanding } }],
        fellSilent s (after1 (.idleWaitTimeout .a) s) 3 ∧ ¬ fellSilent s (after1 (.idleWaitTimeout .a) s) 4) ∧
      ∃ s ∈ [talking .idleWait none (laden .running)],
        (∀ n ∈ addresses, ¬ fellSilent s (after1 (.idleWaitTimeout .a) s) n) ∧ heeded s 14 := by
  unfold allFall fellSilent heeded; and_intros <;> decide +kernel

theorem witness_IsolateAndRestoreMoveTheLine_silence :
    (∃ s ∈ ([posted 31 8 0 [] (laden .jammed)] : List State), s.takes 8 31 ∧ allFall s (after1 .isolateLine s)) ∧
      ∃ s ∈ ([posted 31 8 0 [] (laden .running)] : List State),
        s.takes 8 31 ∧ (∀ n ∈ addresses, ¬ fellSilent s (after1 .isolateLine s) n) ∧ 14 ∈ stationsOn s.toDeck .a ∧
          47 ∈ addresses ∧ 47 ∉ stationsOn s.toDeck .a := by
  unfold allFall fellSilent; and_intros <;> decide +kernel

theorem witness_TestExchangesReportTheirOutcome :
    (∃ s ∈ [hand 5 .taken (talking .replyWait (some 5) (setup fitted))],
      s.power = .running ∧ s.memoryCanonical ∧ s.ordersHeld) ∧
      endsExchange .a (doorExchange .replyWait (some 5)) (.noReply .a) .noReply [] :=
  ⟨by decide +kernel, .inl ⟨rfl, rfl, rfl, rfl⟩⟩

/-! ## Witnesses: ramp timers and the heartbeat -/

/-- The premises of the ramp timer statements. -/
abbrev timed (s : State) : Prop := s.power = .running ∧ s.memoryCanonical ∧ s.ordersHeld

/-- Ramp 0 in WARNING with the warning heard, for a control. -/
def heardWarning (m : Movement) (control : Control) (switches : List Bool) : State :=
  equipped switches calm (withRamp (fun r => { r with heard := true, control := control }) (warning m service))

theorem witness_PrewarnEndsTheWarning :
    (∃ s ∈ [warning .raise service],
      timed s ∧ (tget s.ramps 0).state = .warning ∧ timerDue s.deckClock (tget s.ramps 0).prewarnEnd = true ∧
        (tget s.ramps 0).dwell = false ∧ heardOrWaived s.env 0 s.toDeck = false) ∧
      (∃ s ∈ [withRamp (fun r => { r with dwell := true }) (warning .raise service)],
        timed s ∧ (tget s.ramps 0).dwell = true ∧ heardOrWaived s.env 0 s.toDeck = false) ∧
      (∃ s ∈ [heardWarning .raise .atPanel openSwitches],
        timed s ∧ heardOrWaived s.env 0 s.toDeck = true ∧ (tget s.ramps 0).control = .atPanel ∧
          panelButton s.env 0 2 s.toDeck = false) ∧
      (∃ s ∈ [heardWarning .raise .bridge [false, false, true, false, false]],
        timed s ∧ (tget s.ramps 0).control = .bridge ∧ interlockInHand s.env 0 s.toDeck = some 6) ∧
      (∃ s ∈ [heardWarning .lowerLand .bridge stowedSwitches],
        timed s ∧ interlockInHand s.env 0 s.toDeck = none ∧ rampSwitch s.env 0 2 s.toDeck = false) ∧
      (∃ s ∈ [heardWarning .lowerLand .bridge touchingSwitches],
        timed s ∧ interlockInHand s.env 0 s.toDeck = none ∧ rampSwitch s.env 0 2 s.toDeck = true ∧
          rampSwitch s.env 0 3 s.toDeck = true) ∧
      (∃ s ∈ [heardWarning .lowerLand .bridge openSwitches],
        timed s ∧ interlockInHand s.env 0 s.toDeck = none ∧ rampSwitch s.env 0 3 s.toDeck = false) ∧
      (∃ s ∈ [heardWarning .raise .bridge stowedSwitches],
        timed s ∧ interlockInHand s.env 0 s.toDeck = none ∧ rampSwitch s.env 0 0 s.toDeck = true ∧
          rampSwitch s.env 0 1 s.toDeck = true) ∧
      (∃ s ∈ [heardWarning .raise .bridge [true, false, true, false, true]],
        timed s ∧ interlockInHand s.env 0 s.toDeck = none ∧ rampSwitch s.env 0 0 s.toDeck = true ∧
          rampSwitch s.env 0 1 s.toDeck = false) ∧
      ∃ s ∈ [heardWarning .raise .bridge openSwitches],
        timed s ∧ interlockInHand s.env 0 s.toDeck = none ∧ rampSwitch s.env 0 0 s.toDeck = false := by
  and_intros <;> decide +kernel

theorem witness_RampTimersEndTheirMovements :
    (∃ s ∈ [withRamp (fun r => { r with playLimit := some 5000 }) (warning .raise service)],
      timed s ∧ (tget s.ramps 0).state = .warning ∧ timerDue s.deckClock (tget s.ramps 0).playLimit = true) ∧
      (∃ s ∈ [withRamp (fun r => { r with deadmanWait := some 4294967295 }) (warning .raise service)],
        timed s ∧ (tget s.ramps 0).state = .warning ∧ timerDue s.deckClock (tget s.ramps 0).deadmanWait = true) ∧
      (∃ s ∈ [withRamp (fun r => { r with pinsTimer := some 5000 }) (moving .unlocking .lowerLand service)],
        timed s ∧ timerDue s.deckClock (tget s.ramps 0).pinsTimer = true) ∧
      (∃ s ∈ [withRamp (fun r => { r with reason := .deadman, resumeTimer := some 5000 }) (moving .held .raise service)],
        timed s ∧ (tget s.ramps 0).deadmanHeld = true ∧ (tget s.ramps 0).busy = true ∧
          timerDue s.deckClock (tget s.ramps 0).resumeTimer = true) ∧
      ∃ s ∈ [withRamp (fun r => { r with request := .lower, requestTimer := some 5000 }) service],
        timed s ∧ timerDue s.deckClock (tget s.ramps 0).requestTimer = true := by
  and_intros <;> decide +kernel

theorem witness_HeartbeatCountsDownToSafeHold :
    (bench.answers ∧ bench.consistent) ∧
      (∃ s ∈ [service],
        s.power = .running ∧ s.partState = .service ∧ s.heartbeatEnd = some 5000 ∧ reached s.deckClock 5000 = true ∧
          1 < s.heartbeat) ∧
      ∃ s ∈ [{ moving .raising .raise service with heartbeat := 1 }],
        s.power = .running ∧ s.partState = .service ∧ s.heartbeatEnd = some 5000 ∧ s.heartbeat = 1 ∧ s.memoryCanonical ∧
          s.ordersHeld ∧ (tget s.ramps 0).busy = true ∧ (tget s.ramps 3).busy = false := by
  and_intros <;> decide +kernel

/-! ## Witnesses: boundary timers and call timers -/

theorem witness_DoorTimersCloseOrFail :
    (boundaryConfig service.ram 3).isDoor = true ∧
      (∃ s ∈ [withBoundary 3 (fun x => { x with state := .prewarn, demand := .normal, prewarnEnd := some 5000 }) service],
        timed s ∧ (tget s.boundaries 3).state = .prewarn ∧ timerDue s.deckClock (tget s.boundaries 3).prewarnEnd = true) ∧
      (∃ s ∈ [withBoundary 3 (fun x => { x with state := .reversing, demand := .normal, reversalEnd := some 5000 }) service],
        timed s ∧ (tget s.boundaries 3).state = .reversing ∧
          timerDue s.deckClock (tget s.boundaries 3).reversalEnd = true) ∧
      (∃ s ∈ [withBoundary 3
          (fun x => { x with state := .passage, demand := .normal, holdEnd := some 5000, capEnd := some 5000 }) service],
        timed s ∧ (tget s.boundaries 3).state = .passage ∧ timerDue s.deckClock (tget s.boundaries 3).holdEnd = true ∧
          timerDue s.deckClock (tget s.boundaries 3).capEnd = true) ∧
      ∀ zoned ∈ [true, false],
        ∃ s ∈ [{ withBoundary 3
            (fun x => { x with state := .closing, demand := .normal, closingStart := some 5000, waiting := [5] })
            (hand 5 .taken service) with
            deckClock := 20000, zoneOrders := tput service.zoneOrders 5 { inHand := zoned } }],
          timed s ∧ (tget s.boundaries 3).state = .closing ∧ (tget s.boundaries 3).closingStart = some 5000 ∧
            reached s.deckClock (Machine.after 5000 ((boundaryConfig s.ram 3).closingLimit * 1000)) = true ∧
            5 ∈ (tget s.boundaries 3).waiting ∧ (tget s.zoneOrders 5).inHand = zoned := by
  and_intros <;> decide +kernel

/-- Cover 7 at the end of its prewarn, with the panel occupied or not. -/
def coverDue (occupied : Bool) (st : RampState) : State :=
  withBoundary 7 (fun x => { x with state := .prewarn, demand := .normal, prewarnEnd := some 5000, occupancy := occupied })
    (equipped openSwitches calm (resting st))

theorem witness_CoverPrewarnAsksForTheRaise :
    (∀ occupied ∈ [true, false],
      ∃ s ∈ [coverDue occupied .landed],
        s.power = .running ∧ (boundaryConfig s.ram 7).isCover = true ∧ (tget s.boundaries 7).state = .prewarn ∧
          timerDue s.deckClock (tget s.boundaries 7).prewarnEnd = true ∧ (tget s.boundaries 7).occupancy = occupied) ∧
      closureCheck (coverDue false .landed).env 0 (coverDue false .landed).toDeck = none ∧
      closureCheck (coverDue false .warning).env 0 (coverDue false .warning).toDeck = some 2 ∧
      ¬ raisesAlready (tget (coverDue false .warning).ramps 0) ∧ raisesAlready (tget (coverDue false .stowed).ramps 0) ∧
      ∃ s ∈ [equipped stowedSwitches calm (coverDue false .held)],
        (tget s.boundaries 7).demand ≠ .none ∧ ¬ raisesAlready (tget s.ramps 0) ∧ closureCheck s.env 0 s.toDeck = none ∧
          fullyStowed s.env 0 s.toDeck = true := by
  unfold raisesAlready; and_intros <;> decide +kernel

theorem witness_CoverPrewarnAsksForTheRaise_cleared :
    ∀ st ∈ [RampState.landed, .held, .stowed], ∀ cause ∈ [BlockCause.occupied, .rampStopped, .raiseRefused],
      job (pressing [false, false, false, false, true] calm openSwitches (blocked cause (resting st))) .panel 4 [0x00]
        (fun s => rampsNaming s.ram (fun x => x.panel) 4 = [0] ∧ coverOf s.ram 0 = some 7 ∧
          changesOf s 4 [0x00] = [(4, false)] ∧ (tget s.ramps 0).state ≠ .warning ∧
          (tget s.boundaries 7).state = .blocked ∧ (tget s.boundaries 7).demand ≠ .none ∧
          (occupancyClears s 7 4 [0x00] ↔ cause = .occupied)) := by
  intro st h cause g
  refine job_of_replies ?_
  revert st cause
  unfold occupancyClears
  decide +kernel

/-- Zone 1 with entries in its queue and a play state. -/
def calling (entries : List QueueEntry) (play : PlayState) (known : Bool) : State :=
  withCalls
    (fun z => { z with queue := entries, play := play, known := known, timeout := some 5000, pauseEnd := some 5000,
                       lingerEnd := some 5000 }) service

theorem witness_CallTimersMoveTheQueue :
    (service.power = .running ∧ fireSet service.env service.toDeck .normal = service.fireNormal ∧
        fireSet service.env service.toDeck .emergency = service.fireEmergency) ∧
      (∀ entries ∈ ([[⟨31, 5⟩], [⟨31, 5⟩, ⟨0, 5⟩]] : List (List QueueEntry)), ∀ known ∈ [true, false],
        ∃ s ∈ [calling entries .playing known],
          (tget s.zoneCalls 1).play = .playing ∧ timerDue s.deckClock (tget s.zoneCalls 1).timeout = true ∧
            queueOrdered (tget s.zoneCalls 1).queue ∧ zoneStation s.ram 1 = some 20 ∧ (workingOf s.toDeck 20).level ≠ 0 ∧
            (stationOf s.toDeck 20).muted = false) ∧
      (∃ s ∈ [calling [⟨0, 5⟩] .pause true],
        (tget s.zoneCalls 1).play = .pause ∧ timerDue s.deckClock (tget s.zoneCalls 1).pauseEnd = true ∧
          zoneStation s.ram 1 = some 20) ∧
      ∃ s ∈ [calling [] .idle true],
        (tget s.zoneCalls 1).play = .idle ∧ timerDue s.deckClock (tget s.zoneCalls 1).lingerEnd = true := by
  and_intros <;> decide +kernel

/-! ## Witnesses: frames, zones, angles and line frames -/

theorem witness_UnitsLeaveTheHostAlone :
    (service.memoryCanonical ∧ isUnitEvent (.noReply .b) = true ∧
        exec (.noReply .b) service = .next (after1 (.noReply .b) service)) ∧
      (.cancelCall, 41) ∈ orderCommands ∧ 8 ≤ 41 ∧
      exec .cancelCall (posted 31 41 25 [1] service) = .next (after1 .cancelCall (posted 31 41 25 [1] service)) :=
  ⟨⟨by decide +kernel, rfl, rfl⟩, by decide, by decide, rfl⟩

theorem witness_TimersStayInTheirUnit :
    (∀ c ∈ [Instr.pinsTimerExpiry 3, .passageCapExpiry 23, .coverPrewarnExpiry 0, .lampLingerExpiry 15, .rampStop],
      exec c service = .next (after1 c service)) ∧
      (.rampStop, 22) ∈ ([(.rampLower, 20), (.rampRaise, 21), (.rampStop, 22), (.rampTraffic, 23)] : List (Instr × Nat)) ∧
      (posted 31 22 0 [] service).takes 22 31 := by
  refine ⟨?_, by decide, by decide +kernel⟩
  intro c h
  fin_cases h <;> rfl

theorem witness_BoundaryReportsDeriveTheZones :
    (∀ view ∈ [BoundaryState.closed, .opened],
      (zoneConfig fitted 2).inUse = true ∧ 3 ∈ zoneBoundaries fitted 2 ∧
        (tget (boundaryReport service.env 3 view .normal service.work).boundaryView 3).state = view) ∧
      (zoneConfig fitted 0).inUse = false ∧ 7 ∉ zoneBoundaries fitted 2 ∧
      (zoneConfig fitted 1).inUse = true ∧ (zoneConfig fitted 1).ramp = 0 ∧ (zoneConfig fitted 2).ramp ≠ 0 ∧
      (∀ st ∈ [RampState.landed, .stowed],
        (tget (rampReport service.env 0 st service.work).zones 1).edition = if st = .stowed then 0 else 2) ∧
      (tget (callReport 15 3 1 2 none service.work).zones 15).edition ≠ (tget service.zones 15).edition ∧
      ∀ entry ∈ [255, 255, 255, 255], entry = 255 := by
  and_intros <;> decide +kernel

/-- A ramp that drives to a target, at an angle with a velocity, and eight entries of one angle behind it. -/
def driven (st : RampState) (m : Movement) (target angle velocity : Int) : Ramp :=
  { state := st, movement := m, target := target, angle := angle, angleValid := true, velocity := velocity
    angleHistory := List.replicate 8 ⟨500, 0⟩, phaseSamples := 8 }

theorem witness_SamplesBecomeAnglesAndVelocities :
    (∀ raw ∈ [400, 3600], ∃ x ∈ [acceptSample (rampConfig fitted 0) raw 5000 {}],
      -300 ≤ rawAngle (rampConfig fitted 0) x.filtered ∧ rawAngle (rampConfig fitted 0) x.filtered ≤ 900) ∧
      900 < rawAngle (rampConfig fitted 0) (acceptSample (rampConfig fitted 0) 4094 5000 {}).filtered ∧
      rawAngle { rampConfig fitted 0 with angleLow := -300 } (acceptSample (rampConfig fitted 0) 1 5000 {}).filtered < -300 ∧
      ({} : Ramp).rawHistory = [] ∧ ({ rawHistory := [0, 0, 0, 4095] } : Ramp).rawHistory ≠ [] ∧
      ((0 : Stamp) - 0).toNat = 0 ∧ 0 < ((0 : Stamp) - 4294967295).toNat ∧
      ((1 - 0 : Int) * 1000).natAbs < 1000 * ((5002 : Stamp) - 5000).toNat ∧
      1000 * ((5001 : Stamp) - 5000).toNat ≤ ((1 - 0 : Int) * 1000).natAbs ∧
      ((rampConfig fitted 0).stopBand ≤ (rampConfig fitted 0).creepZone ∧
        (rampConfig fitted 0).creepZone ≤ (rampConfig fitted 0).slowZone) ∧
      ((driven .lowering .lowerToAngle 305 300 0).angleValid = true ∧
        ((305 - 300 : Int).natAbs ≤ (rampConfig fitted 0).stopBand)) ∧
      (driven .lowering .lowerLand 30 (-100) 0).angle ≤ (rampConfig fitted 0).lowerLimit ∧
      (rampConfig fitted 0).stowAngle + 20 < (driven .raising .raise 800 821 0).angle ∧
      5 < (driven .lowering .lowerLand 30 500 6).velocity ∧ (driven .raising .raise 800 500 (-6)).velocity < -5 ∧
      (∃ x, entryBack (driven .lowering .lowerLand 30 500 0).angleHistory (rampConfig fitted 0).stallWindow = some x ∧
        (500 - x.angle).natAbs < (rampConfig fitted 0).minProgress) ∧
      (rampConfig fitted 0).warnLimit < (45 - 0 : Int).natAbs ∧ (20 : Int).natAbs + 10 ≤ (rampConfig fitted 0).warnLimit := by
  and_intros <;> decide +kernel

theorem witness_ReplyFramesAreReceivedGood :
    (63 < 64 ∧ rampReply.length = replyLength .ramp) ∧ ([] : List Byte).length = replyLength .none := by decide

/-! ## Well-formed commands -/

theorem test_odd_address_is_ill_formed : (Instr.hostWrite 0x17 0).wellFormed = false := by decide

theorem test_heartbeat_0_is_ill_formed : (Instr.heartbeatReload 0).wellFormed = false := by decide

theorem test_heartbeat_256_is_ill_formed : (Instr.heartbeatReload 256).wellFormed = false := by decide

theorem test_enable_write_with_bit_1_is_ill_formed : (Instr.interruptEnableWrite 3).wellFormed = false := by decide

theorem test_bridge_reset_without_bit_1_is_ill_formed : (Instr.bridgeReset 0xFFFD).wellFormed = false := by decide

theorem test_reply_start_without_sync_is_ill_formed :
    (Instr.replyStart .a (chars [0xC3, 0x3D])).wellFormed = false := by decide +kernel

theorem test_sound_frame_is_no_fault : (Instr.receptionFault .a (doorReply 2)).wellFormed = false := by decide +kernel

theorem test_faulty_frame_is_no_reply : (Instr.replyFrame .a [badParity]).wellFormed = false := by decide +kernel

theorem test_unfinished_frame_is_no_reply : (Instr.replyFrame .b ((doorReply 2).take 4)).wellFormed = false := by
  decide +kernel

theorem test_complete_frame_is_well_formed : (Instr.replyFrame .a (doorReply 2)).wellFormed = true := by decide +kernel

/-! ## Frames, checks and arithmetic: values that the manual prints -/

/-- 2.3: a POLL to a ramp station at address 5 with LOWER and FULL. -/
theorem test_poll_to_ramp_5 : (pollFrame 5 (.ramp .lower .full)).take 6 = [0xC3, 0x3C, 0x45, 0x02, 0x01, 0x03] := by
  decide +kernel

/-- R14: its REPLY begins 0xC3, 0x3C, 0x85, 0x03. -/
theorem test_reply_of_ramp_5 : (frameOf true 5 [0, 0, 0]).take 4 = [0xC3, 0x3C, 0x85, 0x03] := by decide +kernel

/-- R56: 2.5 gives 3, −2.5 gives −3, 2.49 gives 2 and −2.51 gives −3. -/
theorem test_rounding :
    roundedQuotient 5 2 = 3 ∧ roundedQuotient (-5) 2 = -3 ∧ roundedQuotient 249 100 = 2 ∧ roundedQuotient (-251) 100 = -3 := by
  decide

/-! ## One step of each command -/

/-- R171: a posted slot joins the arrival list last. -/
theorem test_posting : (after1 (.posting 2) (posted 31 1 0 [] bench)).arrivals = [31, 2] := by decide +kernel

/-- R160: a withdrawal of a TAKEN slot is refused, with the address of its hand. -/
theorem test_withdrawal_refused : (after1 (.withdrawal 31) (hand 31 .taken bench)).lastRefused = 0x08C0 := by decide +kernel

theorem test_giveBack :
    tget (after1 (.giveBack 31) { hand 31 .done bench with doneCount := 1 }).hands 31 = .empty := by decide +kernel

/-- R149: the hand word of a taken cell reads CLEAR, and its edition has moved on by 2. -/
theorem test_take :
    (tget (after1 (.take 49 7) (withCell 49 7 bench)).cells 49).fresh = false ∧
      (tget (after1 (.take 49 7) (withCell 49 7 bench)).cells 49).edition = 2 := by decide +kernel

/-- R151: another number is a stale take. -/
theorem test_take_stale : (after1 (.take 49 8) (withCell 49 7 bench)).staleTakes = 1 := by decide +kernel

/-- 0.6.5: words are stored low byte first. -/
theorem test_hostWrite : memRead (after1 (.hostWrite 0x23FE 0x1234) bench).ram 0x23FF = 0x12 := by decide +kernel

/-- R159: the catalogue is part-owned outside SETUP. -/
theorem test_hostWrite_refused : (after1 (.hostWrite 0x23FE 0x1234) service).refusedWrites = 1 := by decide +kernel

theorem test_heartbeatReload : (after1 (.heartbeatReload 255) service).heartbeat = 255 := by decide +kernel

theorem test_newsFlagClear :
    (after1 (.newsFlagClear .stateChanged)
      { bench with stateChanged := true, newsEnables := 4, interruptEnable := true, nBINT := false }).nBINT = true := by
  decide +kernel

theorem test_deckClockLowRead :
    (after1 .deckClockLowRead { bench with deckClock := 0x12345678 }).clockLatch = 0x1234 := by decide +kernel

theorem test_windowWrite : (after1 (.windowWrite 0xFFFF) bench).window = 0xFFC1 := by decide +kernel

theorem test_interruptEnableWrite :
    (after1 (.interruptEnableWrite 1) { bench with orderDone := true, newsEnables := 1 }).nBINT = false := by decide +kernel

/-- R176: a POSTED slot completes with RESET, 15. -/
theorem test_bridgeReset : memRead (after1 (.bridgeReset 2) (posted 31 1 0 [] bench)).ram 0x08C7 = 15 := by decide +kernel

theorem test_bridgeReset_holds : (after1 (.bridgeReset 2) service).bridgeResetting = true := by decide +kernel

/-- R165: the write that waited is served. -/
theorem test_bridgeResetEnd :
    memRead (after1 .bridgeResetEnd { bench with bridgeResetting := true, held := [.write 0x2000 0x0102] }).ram 0x2000 = 2 := by
  decide +kernel

theorem test_registerWriteIgnored : after1 (.registerWriteIgnored .ident 0xFFFF) bench = bench := by decide +kernel

theorem test_powerOnReset : (after1 .powerOnReset service).power = .inReset := by decide +kernel

theorem test_powerOnClear : (after1 .powerOnClear { bench with power := .inReset }).deckClock = 0 := by decide +kernel

theorem test_powerOnClearEnd :
    after1 .powerOnClearEnd { State.reset with power := .clearing, ram := [] } = State.reset := by decide +kernel

/-- R178: field 3 of zone 0 (table 2) fails first in a cleared configuration. -/
theorem test_startService :
    ((List.range 3).map fun i => memRead (after1 .startService (posted 31 1 0 [] bench)).ram (0x08E0 + i)) = [2, 0, 3] := by
  decide +kernel

theorem test_startTakesEffect :
    (after1 .startTakesEffect { hand 5 .taken (setup fitted) with starting := some 5 }).lineB.state = .running := by
  decide +kernel

theorem test_enterSetup : (after1 .enterSetup (posted 31 2 0 [] service)).partState = .setup := by decide +kernel

/-- R182: with the heartbeat count at 0 the detail is 2, 1. -/
theorem test_resume :
    memRead (after1 .resume (posted 31 3 0 [] { service with partState := .safeHold, heartbeat := 0 })).ram 0x08E1 = 1 := by
  decide +kernel

/-- R27: the stations of the line move to the other. -/
theorem test_isolateLine : (stationOf (after1 .isolateLine (posted 31 8 0 [] service)).toDeck 14).current = .b := by
  decide +kernel

theorem test_restoreLine :
    (after1 .restoreLine (posted 31 9 0 [] (withLine (fun x => { x with state := .isolated }) service))).lineA.state =
      .running := by decide +kernel

theorem test_testStation : testInFlight (after1 .testStation (posted 31 12 14 [1] (setup fitted))).lineB = true := by
  decide +kernel

theorem test_unmuteStation :
    (stationOf (after1 .unmuteStation (posted 31 16 14 []
      { service with stations := tput service.stations 13 { muted := true, mutedCount := 9 } })).toDeck 14).mutedCount = 0 := by
  decide +kernel

/-- R78: the warning record of the ramp, 26, is ACTIVE with the prewarn at 5 + 10 s. -/
theorem test_rampLower :
    (tget (after1 .rampLower (ordered 20 [0, 0] stowedSwitches (resting .stowed))).ramps 0).prewarnEnd = some 15000 ∧
      (tget (after1 .rampLower (ordered 20 [0, 0] stowedSwitches (resting .stowed))).records 26).state = .active := by
  decide +kernel

/-- R74: a raise from UNKNOWN fails RAMP STATE, code 2. -/
theorem test_rampRaise : memRead (after1 .rampRaise (ordered 21 [0, 0] openSwitches service)).ram 0x08E0 = 2 := by
  decide +kernel

/-- R74: the detail of a refused raise has the stow angle, 800, as its target. -/
theorem test_rampRaise_refused_target :
    memReadWord (after1 .rampRaise (ordered 21 [0, 2] openSwitches service)).ram (slotBase 31 + 32 + 6) = 800 := by
  decide +kernel

theorem test_rampStop :
    (tget (after1 .rampStop (posted 31 22 0 [] (moving .raising .raise service))).ramps 0).reason = .order := by
  decide +kernel

/-- R91: TIP CONTACT is wanting, code 13. -/
theorem test_rampTraffic : memRead (after1 .rampTraffic (ordered 23 [1] openSwitches (resting .landed))).ram 0x08E0 = 13 := by
  decide +kernel

/-- R104: an EMERGENCY order gives the prewarn short, 5 s. -/
theorem test_closeBoundary :
    (tget (after1 .closeBoundary (posted 31 32 3 [1] (standing 3 .opened .none service))).boundaries 3).prewarnEnd =
      some 10000 := by decide +kernel

/-- R115: a cover whose ramp is STOWED is CLOSED, and the order completes OK, 1. -/
theorem test_closeBoundary_cover :
    memRead (after1 .closeBoundary (posted 31 32 7 [] (resting .stowed))).ram 0x08C7 = 1 := by decide +kernel

theorem test_closeZone : isWaiting (after1 .closeZone (posted 31 33 2 [] service)).toDeck 31 = true := by decide +kernel

/-- R112: a closing door opens again, with the opening mark. -/
theorem test_releaseBoundary :
    (tget (after1 .releaseBoundary (posted 31 34 3 [] (standing 3 .closing .normal service))).boundaries 3).drive =
      .opening := by decide +kernel

/-- R118: a cover in PREWARN refuses FORCE COVER as busy, 6. -/
theorem test_forceCover :
    memRead (after1 .forceCover (posted 31 35 7 [] (standing 7 .prewarn .normal service))).ram 0x08C7 = 6 := by
  decide +kernel

/-- R127: a priority above 5 is taken as 5 and a repeat count above 15 as 15. -/
theorem test_call :
    (tget (after1 .call (callOrder 12 [2, 0] service)).records 0).priority = 5 ∧
      (tget (after1 .call (callOrder 12 [2, 0] service)).records 0).repeats = 15 := by decide +kernel

theorem test_cancelCall :
    (tget (after1 .cancelCall (posted 31 41 25 [255] (hand 5 .taken
      { service with records := tput service.records 25 activeCall }))).records 25).state = .free := by decide +kernel

theorem test_refusedKind : memRead (after1 .refusedKind (posted 31 4 0 [] service)).ram 0x08C7 = 3 := by decide +kernel

theorem test_idleWaitSuccess : (after1 (.idleWaitSuccess .a) (talking .idleWait none service)).lineA.driver = true := by
  decide +kernel

/-- R25: the level of the line's cell is 3, and the stations of the line are handed to line B. -/
theorem test_idleWaitTimeout :
    (tget (after1 (.idleWaitTimeout .a) (talking .idleWait none service)).cells 48).level = 3 ∧
      (stationOf (after1 (.idleWaitTimeout .a) (talking .idleWait none service)).toDeck 14).current = .b := by
  decide +kernel

/-- R26: the next retry is 1 s on. -/
theorem test_retry :
    (after1 (.retry .a) (withLine (fun x => { x with state := .jammed, retryAt := 5000 }) service)).lineA.retryAt = 6000 := by
  decide +kernel

theorem test_pollEnd :
    (after1 (.pollEnd .a) (withLine (fun x => { x with driver := true }) (talking (.poll []) none service))).lineA.driver =
      false := by decide +kernel

/-- R21: (1 + 6) × 11 bit times of 4 µs and 0.5 ms are 808 µs for a door station. -/
theorem test_replyStart :
    exchangeIn (after1 (.replyStart .a (chars [0xC3, 0x3C])) (talking .replyWait none service)).toDeck .a
      (fun p => p == .reception 808) ≠ none := by decide +kernel

theorem test_noReply : (after1 (.noReply .a) (talking .replyWait none service)).lineA.noReplyCount = 1 := by decide +kernel

theorem test_receptionFault :
    (after1 (.receptionFault .a [badParity]) (talking (.reception 808) none service)).lineA.parityCount = 1 := by
  decide +kernel

theorem test_truncated : (after1 (.truncated .a) (talking (.reception 808) none service)).lineA.truncatedCount = 1 := by
  decide +kernel

/-- R43; and R60: a sample AT TARGET is entered at step 7, after the phase that step 3 begins. -/
theorem test_replyFrame :
    (stationOf (after1 (.replyFrame .a (doorReply 2)) (talking (.reception 808) none service)).toDeck 14).lastReply = 5000 ∧
      (tget (after1 (.replyFrame .a (replyOf 3 [0xF8, 0, 0x14])) (sampling openSwitches (withRamp
        (fun r => { r with target := 362 }) (moving .lowering .lowerToAngle service)))).ramps 0).angleHistory =
        [⟨365, 5000⟩] := by
  decide +kernel

/-- R105, R109: CLOSED END clear and a push in one report begin a passage, and the edge of that report counts no
obstruction. -/
theorem test_replyFrame_push :
    ((fun t : State => ((tget t.boundaries 3).state, (tget t.boundaries 3).obstructions))
      (after1 (.replyFrame .a (replyOf 14 [0x0C]))
        (awaiting 14 .door (only 1) [false, false, true, true, false] (standing 3 .closed .normal service)))) =
      (.passage, 0) := by decide +kernel

theorem test_motionPrewarnExpiry :
    (tget (after1 (.motionPrewarnExpiry 0) (heardWarning .raise .bridge openSwitches)).ramps 0).state = .raising := by
  decide +kernel

/-- R79: WARNING TIMEOUT is detail code 11 of a FAULT, 14. -/
theorem test_playLimitExpiry :
    memRead (after1 (.playLimitExpiry 0) (withRamp (fun r => { r with playLimit := some 5000 }) (warning .raise service))).ram
      (slotBase 5 + 32) = 11 := by decide +kernel

theorem test_deadmanWaitExpiry :
    memRead (after1 (.deadmanWaitExpiry 0)
      (withRamp (fun r => { r with deadmanWait := some 5000 }) (warning .raise service))).ram (slotBase 5 + 7) = 13 := by
  decide +kernel

theorem test_reversalDwellEnd :
    (tget (after1 (.reversalDwellEnd 0)
      (withRamp (fun r => { r with dwell := true }) (heardWarning .raise .bridge openSwitches))).ramps 0).state = .raising := by
  decide +kernel

theorem test_pinsTimerExpiry :
    (tget (after1 (.pinsTimerExpiry 0)
      (withRamp (fun r => { r with pinsTimer := some 5000 }) (moving .unlocking .lowerLand service))).ramps 0).reason = .pins := by
  decide +kernel

theorem test_resumeTimerExpiry :
    (tget (after1 (.resumeTimerExpiry 0)
      (withRamp (fun r => { r with reason := .deadman, resumeTimer := some 5000 }) (moving .held .raise service))).ramps 0).state =
      .held := by decide +kernel

theorem test_requestTimerExpiry :
    (tget (after1 (.requestTimerExpiry 0)
      (withRamp (fun r => { r with request := .lower, requestTimer := some 5000 }) service)).ramps 0).request = .none := by
  decide +kernel

theorem test_doorPrewarnExpiry :
    (tget (after1 (.doorPrewarnExpiry 3) (withBoundary 3 (fun x => { x with prewarnEnd := some 5000 })
      (standing 3 .prewarn .normal service))).boundaries 3).drive = .close := by decide +kernel

/-- R116: an occupied panel blocks the cover with cause OCCUPIED. -/
theorem test_coverPrewarnExpiry :
    (tget (after1 (.coverPrewarnExpiry 7) (coverDue true .landed)).boundaries 7).blockCause = .occupied := by decide +kernel

theorem test_coverPrewarnExpiry_raises :
    (tget (after1 (.coverPrewarnExpiry 7) (coverDue false .landed)).ramps 0).source = .closure := by decide +kernel

/-- R107: DOOR FAILED with detail 1. -/
theorem test_closingLimitExpiry :
    (tget (after1 (.closingLimitExpiry 3)
      { withBoundary 3 (fun x => { x with closingStart := some 5000 }) (standing 3 .closing .normal service) with
        deckClock := 20000 }).cells 13).detail = 1 := by decide +kernel

theorem test_reversalTimerExpiry :
    (tget (after1 (.reversalTimerExpiry 3) (withBoundary 3 (fun x => { x with reversalEnd := some 5000 })
      (standing 3 .reversing .normal service))).boundaries 3).closingStart = some 5000 := by decide +kernel

theorem test_passageHoldExpiry :
    (tget (after1 (.passageHoldExpiry 3) (withBoundary 3 (fun x => { x with holdEnd := some 5000, capEnd := some 9000 })
      (standing 3 .passage .normal service))).boundaries 3).capEnd = none := by decide +kernel

theorem test_passageCapExpiry :
    (tget (after1 (.passageCapExpiry 3) (withBoundary 3 (fun x => { x with holdEnd := some 9000, capEnd := some 5000 })
      (standing 3 .passage .normal service))).boundaries 3).state = .closing := by decide +kernel

/-- R139: cause 1 in the high byte, the record in the low byte. -/
theorem test_playTimeout :
    (tget (after1 (.playTimeout 1) (calling [⟨9, 5⟩] .playing true)).cells 19).detail = 0x0109 := by decide +kernel

theorem test_pauseEnd : (tget (after1 (.pauseEnd 1) (calling [⟨9, 5⟩] .pause true)).zoneCalls 1).token = 1 := by decide +kernel

theorem test_lampLingerExpiry : (tget (after1 (.lampLingerExpiry 1) (calling [] .idle true)).zoneCalls 1).lingerEnd = none := by
  decide +kernel

theorem test_heartbeatDecrement : (after1 .heartbeatDecrement service).heartbeatEnd = some 5100 := by decide +kernel

theorem test_abandonedPollCharacterEnd :
    (after1 (.abandonedPollCharacterEnd .b) { bench with lineB := { releasing := true, driver := true } }).lineB.driver =
      false := by decide +kernel

/-! ## The queue and the words of the table -/

/-- No row of the table has bits, so no word spells a command and the queue stays as it is. -/
theorem test_no_word_spells_a_command : decodeTableWord 16 0 = none := rfl

theorem test_withFetchWord : bench.withFetchWord 16 0xFFFF = bench := rfl

end Sys2Proof.Tests
end

section
/-! SUPPORT and proof of the arithmetic of an accepted sample (Chapter 4): the filter, the conversion, the velocity, the
verdict on a driven sample, and the drift flags. -/

namespace Sys2Proof.Machine

/-! ## Filter and conversion (R55 to R57) -/

theorem filteredCount_bounds (history : List Nat) :
    4 * filteredCount history ≤ history.sum + 2 ∧ history.sum + 2 < 4 * filteredCount history + 4 := by
  unfold filteredCount
  omega

@[simp] theorem filteredCount_four_equal (raw : Nat) : filteredCount [raw, raw, raw, raw] = raw := by
  simp only [filteredCount, List.sum_cons, List.sum_nil]
  omega

@[simp] theorem pushRaw_nil (raw : Nat) : pushRaw [] raw = [raw, raw, raw, raw] := rfl

theorem pushRaw_of_ne_nil {history : List Nat} (h : history ≠ []) (raw : Nat) :
    pushRaw history raw = history.drop 1 ++ [raw] := by
  simp [pushRaw, h]

/-- Half upward on magnitudes: `(2 m + d) / (2 d)` lies within half of `m / d`, and its lower end is excluded. -/
theorem halfUpQuotient_bounds (m : Nat) {d : Nat} (hd : 0 < d) :
    2 * ((2 * m + d) / (2 * d) * d) ≤ 2 * m + d ∧ 2 * m < 2 * ((2 * m + d) / (2 * d) * d) + d := by
  have low := Nat.div_mul_le_self (2 * m + d) (2 * d)
  have high := Nat.lt_div_mul_add (a := 2 * m + d) (b := 2 * d) (by omega)
  rw [Nat.mul_left_comm] at low high
  omega

theorem roundedQuotient_mul (n : Int) (d : Nat) :
    roundedQuotient n d * d =
      if n < 0 then -(((2 * n.natAbs + d) / (2 * d) * d : Nat) : Int)
      else ((2 * n.natAbs + d) / (2 * d) * d : Nat) := by
  unfold roundedQuotient
  split <;> push_cast <;> ring

/-- The rounding of R56: nearest, and on a tie the magnitude grows. The sign of `n` leaves the magnitudes of
`halfUpQuotient_bounds`. -/
theorem roundedQuotient_nearest (n : Int) {d : Nat} (hd : 0 < d) :
    (2 * (roundedQuotient n d * d - n)).natAbs ≤ d ∧
      ((2 * (roundedQuotient n d * d - n)).natAbs = d → n.natAbs < (roundedQuotient n d * d).natAbs) := by
  obtain ⟨low, high⟩ := halfUpQuotient_bounds n.natAbs hd
  rw [roundedQuotient_mul]
  split <;> omega

theorem clampAngle_of_mem {x : Int} (h : -300 ≤ x ∧ x ≤ 900) : clampAngle x = x := by
  unfold clampAngle
  omega

theorem clampAngle_of_lt {x : Int} (h : x < -300) : clampAngle x = -300 := by
  unfold clampAngle
  omega

theorem clampAngle_of_gt {x : Int} (h : 900 < x) : clampAngle x = 900 := by
  unfold clampAngle
  omega

section
variable (c : RampConfig) (raw : Nat) (stamp : Stamp) (r : Ramp)

@[simp] theorem acceptSample_angle :
    (acceptSample c raw stamp r).angle = clampAngle (rawAngle c (acceptSample c raw stamp r).filtered) := rfl

@[simp] theorem acceptSample_clamped :
    (acceptSample c raw stamp r).clamped =
      (clampAngle (rawAngle c (acceptSample c raw stamp r).filtered) !=
        rawAngle c (acceptSample c raw stamp r).filtered) := rfl

@[simp] theorem acceptSample_rawHistory : (acceptSample c raw stamp r).rawHistory = pushRaw r.rawHistory raw := rfl

theorem acceptSample_filtered :
    (acceptSample c raw stamp r).filtered = filteredCount (acceptSample c raw stamp r).rawHistory := rfl

theorem acceptSample_within (h : -300 ≤ rawAngle c (acceptSample c raw stamp r).filtered ∧
    rawAngle c (acceptSample c raw stamp r).filtered ≤ 900) :
    (acceptSample c raw stamp r).angle = rawAngle c (acceptSample c raw stamp r).filtered ∧
      (acceptSample c raw stamp r).clamped = false := by
  simp [clampAngle_of_mem h]

theorem acceptSample_below (h : rawAngle c (acceptSample c raw stamp r).filtered < -300) :
    (acceptSample c raw stamp r).angle = -300 ∧ (acceptSample c raw stamp r).clamped = true := by
  simpa [clampAngle_of_lt h] using h.ne'

theorem acceptSample_above (h : 900 < rawAngle c (acceptSample c raw stamp r).filtered) :
    (acceptSample c raw stamp r).angle = 900 ∧ (acceptSample c raw stamp r).clamped = true := by
  simpa [clampAngle_of_gt h] using h.ne

theorem acceptSample_first (h : r.rawHistory = []) :
    (acceptSample c raw stamp r).filtered = raw ∧ (acceptSample c raw stamp r).rawHistory = [raw, raw, raw, raw] := by
  simp [acceptSample_filtered, h]

theorem acceptSample_later (h : r.rawHistory ≠ []) :
    (acceptSample c raw stamp r).rawHistory = r.rawHistory.drop 1 ++ [raw] ∧
      (acceptSample c raw stamp r).filtered = filteredCount (acceptSample c raw stamp r).rawHistory :=
  ⟨pushRaw_of_ne_nil h raw, rfl⟩

end

/-! ## Velocity (R59) -/

/-- Truncation toward zero divides the magnitudes. -/
theorem natAbs_tdiv_natCast (a : Int) (d : Nat) : (a.tdiv d).natAbs = a.natAbs / d :=
  Int.natAbs_tdiv a d

theorem tdiv_natCast_nonpos {a : Int} (h : a ≤ 0) (d : Nat) : a.tdiv d ≤ 0 := by
  have := Int.tdiv_nonneg (Int.neg_nonneg_of_nonpos h) (Int.natCast_nonneg d)
  rw [Int.neg_tdiv] at this
  omega

theorem tdiv_natCast_nonneg {a : Int} (h : 0 ≤ a) (d : Nat) : 0 ≤ a.tdiv d :=
  Int.tdiv_nonneg h (Int.natCast_nonneg d)

/-- Truncation toward zero: the quotient's magnitude is the whole part of `a / d`, and its sign is that of `a`. -/
theorem tdiv_natCast_truncates (a : Int) {d : Nat} (hd : 0 < d) :
    (a.tdiv d).natAbs * d ≤ a.natAbs ∧ a.natAbs < ((a.tdiv d).natAbs + 1) * d ∧ (0 < a.tdiv d → 0 < a) ∧
      (a.tdiv d < 0 → a < 0) := by
  rw [natAbs_tdiv_natCast]
  refine ⟨Nat.div_mul_le_self _ _, ?_, fun pos => ?_, fun neg => ?_⟩
  · exact (Nat.div_lt_iff_lt_mul hd).1 (Nat.lt_succ_self _)
  · by_contra nonpos
    exact absurd (tdiv_natCast_nonpos (not_lt.1 nonpos) d) (not_le.2 pos)
  · by_contra nonneg
    exact absurd (tdiv_natCast_nonneg (not_lt.1 nonneg) d) (not_le.2 neg)

theorem limitedQuotient_of_lt {a : Int} {d : Nat} (hd : 0 < d) (h : a.natAbs < 1000 * d) :
    max (-999) (min 999 (a.tdiv d)) = a.tdiv d := by
  have small : (a.tdiv d).natAbs < 1000 := natAbs_tdiv_natCast a d ▸ (Nat.div_lt_iff_lt_mul hd).2 h
  omega

theorem limitedQuotient_of_ge {a : Int} {d : Nat} (hd : 0 < d) (h : 1000 * d ≤ a.natAbs) :
    (0 < a → max (-999) (min 999 (a.tdiv d)) = 999) ∧ (a < 0 → max (-999) (min 999 (a.tdiv d)) = -999) := by
  have large : 1000 ≤ (a.tdiv d).natAbs := natAbs_tdiv_natCast a d ▸ (Nat.le_div_iff_mul_le hd).2 h
  constructor
  · intro pos
    have := tdiv_natCast_nonneg pos.le d
    omega
  · intro neg
    have := tdiv_natCast_nonpos neg.le d
    omega

section
variable (oldest : AngleEntry) (rest : List AngleEntry) (x : Int) (stamp : Stamp)

@[simp] theorem velocityOf_nil : velocityOf [] x stamp = 0 := rfl

theorem velocityOf_no_interval (h : (stamp - oldest.stamp).toNat = 0) : velocityOf (oldest :: rest) x stamp = 0 :=
  if_pos h

theorem velocityOf_interval (h : 0 < (stamp - oldest.stamp).toNat) :
    velocityOf (oldest :: rest) x stamp =
      max (-999) (min 999 (((x - oldest.angle) * 1000).tdiv (stamp - oldest.stamp).toNat)) :=
  if_neg h.ne'

theorem velocityOf_unlimited (h : 0 < (stamp - oldest.stamp).toNat)
    (small : ((x - oldest.angle) * 1000).natAbs < 1000 * (stamp - oldest.stamp).toNat) :
    velocityOf (oldest :: rest) x stamp = ((x - oldest.angle) * 1000).tdiv (stamp - oldest.stamp).toNat := by
  rw [velocityOf_interval oldest rest x stamp h, limitedQuotient_of_lt h small]

theorem velocityOf_limited (h : 0 < (stamp - oldest.stamp).toNat)
    (large : 1000 * (stamp - oldest.stamp).toNat ≤ ((x - oldest.angle) * 1000).natAbs) :
    (0 < (x - oldest.angle) * 1000 → velocityOf (oldest :: rest) x stamp = 999) ∧
      ((x - oldest.angle) * 1000 < 0 → velocityOf (oldest :: rest) x stamp = -999) := by
  rw [velocityOf_interval oldest rest x stamp h]
  exact limitedQuotient_of_ge h large

end

/-! ## Band and target (R60, R61) -/

theorem bandOf_eq_none_iff {c : RampConfig} (stop : c.stopBand ≤ c.creepZone) (creep : c.creepZone ≤ c.slowZone)
    (distance : Nat) : bandOf c distance = .none ↔ distance ≤ c.stopBand := by
  unfold bandOf
  split_ifs <;> simp <;> omega

/-- The band that a driven sample commands (R61): CREEP stands for AT TARGET where the movement goes on to a switch. -/
def sampleBand (c : RampConfig) (r : Ramp) : Band :=
  if bandOf c (distanceOf r) = .none then .creep else bandOf c (distanceOf r)

theorem sampleBand_eq (c : RampConfig) (r : Ramp) :
    sampleBand c r =
      if c.slowZone < distanceOf r then .full else if c.creepZone < distanceOf r then .slow else .creep := by
  unfold sampleBand bandOf
  split_ifs <;> simp_all

theorem reachesTarget_iff {c : RampConfig} {r : Ramp} (stop : c.stopBand ≤ c.creepZone)
    (creep : c.creepZone ≤ c.slowZone) (valid : r.angleValid = true) :
    reachesTarget c r = true ↔ r.movement = .lowerToAngle ∧ (r.target - r.angle).natAbs ≤ c.stopBand := by
  simp [reachesTarget, valid, bandOf_eq_none_iff stop creep, distanceOf]

/-! ## Checks of a driven sample (R62 to R64) -/

/-- R64: at or below the lower limit without TIP CONTACT, or more than 20 above the stow angle without the stow switch. -/
def beyondTravel (c : RampConfig) (tip stowed : Bool) (r : Ramp) : Prop :=
  (r.state = .lowering ∧ r.angle ≤ c.lowerLimit ∧ tip = false) ∨
    (r.state = .raising ∧ c.stowAngle + 20 < r.angle ∧ stowed = false)

theorem travelFault_of_beyondTravel {c : RampConfig} {tip stowed : Bool} {r : Ramp} (h : beyondTravel c tip stowed r) :
    travelFault c tip stowed r = some (if r.state = .lowering then .noLanding else .noStowLimit) := by
  obtain ⟨lowering, low, noTip⟩ | ⟨raising, high, notStowed⟩ := h
  · simp [travelFault, lowering, low, noTip]
  · simp [travelFault, raising, high, notStowed]

theorem travelFault_of_not_beyondTravel {c : RampConfig} {tip stowed : Bool} {r : Ramp}
    (drives : r.state = .lowering ∨ r.state = .raising) (h : ¬ beyondTravel c tip stowed r) :
    travelFault c tip stowed r = none := by
  obtain lowering | raising := drives
  · simpa [beyondTravel, travelFault, lowering] using h
  · simpa [beyondTravel, travelFault, raising] using h

theorem wrongDirection_iff (r : Ramp) :
    wrongDirection r = true ↔ (r.state = .lowering ∧ 5 < r.velocity) ∨ (r.state = .raising ∧ r.velocity < -5) := by
  unfold wrongDirection
  split <;> simp_all

/-- R62: the movement that the stall check requires at a distance, which CREEP quarters. -/
theorem requiredMovement_bandOf {c : RampConfig} (creep : c.creepZone ≤ c.slowZone) {distance : Nat}
    (away : c.stopBand < distance) :
    requiredMovement c (bandOf c distance) =
      if distance ≤ c.creepZone then max 1 (c.minProgress / 4) else c.minProgress := by
  by_cases near : distance ≤ c.creepZone
  · simp [bandOf, requiredMovement, away, near, not_lt.2 near, not_lt.2 (near.trans creep)]
  · by_cases far : c.slowZone < distance <;> simp [bandOf, requiredMovement, near, far, not_le.1 near]

theorem stalls_iff (c : RampConfig) (band : Band) (r : Ramp) :
    stalls c band r = true ↔ c.stallWindow ≤ r.phaseSamples ∧
      ∃ x, entryBack r.angleHistory c.stallWindow = some x ∧ (r.angle - x.angle).natAbs < requiredMovement c band := by
  unfold stalls
  cases entryBack r.angleHistory c.stallWindow <;> simp

/-- R62: a sample that is not AT TARGET, with the window full, whose angle has moved too little over the window. -/
theorem stalls_awayFromTarget_iff {c : RampConfig} (stop : c.stopBand ≤ c.creepZone) (creep : c.creepZone ≤ c.slowZone)
    (r : Ramp) :
    bandOf c (distanceOf r) ≠ .none ∧ stalls c (bandOf c (distanceOf r)) r = true ↔
      c.stopBand < distanceOf r ∧ c.stallWindow ≤ r.phaseSamples ∧
        ∃ x, entryBack r.angleHistory c.stallWindow = some x ∧
          (r.angle - x.angle).natAbs <
            if distanceOf r ≤ c.creepZone then max 1 (c.minProgress / 4) else c.minProgress := by
  rw [Ne, bandOf_eq_none_iff stop creep, not_le]
  refine and_congr_right fun away => ?_
  rw [stalls_iff, requiredMovement_bandOf creep away]

/-- The run of wrong-direction samples with this sample (R63). -/
def wrongRunAfter (r : Ramp) : Nat := if wrongDirection r then r.wrongRun + 1 else 0

theorem wrongRunAfter_eq (r : Ramp) :
    wrongRunAfter r =
      if (r.state = .lowering ∧ 5 < r.velocity) ∨ (r.state = .raising ∧ r.velocity < -5) then r.wrongRun + 1 else 0 :=
  if_congr (wrongDirection_iff r) rfl rfl

section
variable {c : RampConfig} {tip stowed : Bool} {r : Ramp}

theorem drivenSample_of_reachesTarget (h : reachesTarget c r = true) : drivenSample c tip stowed r = (r, .atTarget) :=
  if_pos h

/-- No later check reads the band that the sample sets, so each of them is the check of `r` itself. -/
theorem drivenSample_of_travelFault (away : reachesTarget c r = false) {reason : Reason}
    (h : travelFault c tip stowed r = some reason) :
    drivenSample c tip stowed r = ({ r with band := sampleBand c r }, .fault reason) := by
  have unbanded (b : Band) : travelFault c tip stowed { r with band := b } = some reason := h
  simp [drivenSample, away, unbanded, sampleBand]

theorem drivenSample_of_no_travelFault (away : reachesTarget c r = false) (h : travelFault c tip stowed r = none) :
    drivenSample c tip stowed r =
      ({ r with band := sampleBand c r, wrongRun := wrongRunAfter r },
        if 3 ≤ wrongRunAfter r then .fault .wrongDirection
        else if bandOf c (distanceOf r) ≠ .none ∧ stalls c (bandOf c (distanceOf r)) r then .fault .stall
        else .goOn) := by
  have unbanded (b : Band) : travelFault c tip stowed { r with band := b } = none := h
  rw [apply_ite (Prod.mk _), apply_ite (Prod.mk _)]
  simp only [drivenSample, away, unbanded]
  rfl

end

/-! ## Drift (R65, R66) -/

theorem driftFlags_driftWarned (c : RampConfig) (r : Ramp) :
    (driftFlags c r).driftWarned =
      if c.warnLimit < (r.angle - r.landingAngle).natAbs then true
      else if (r.angle - r.landingAngle).natAbs + 10 ≤ c.warnLimit then false else r.driftWarned := rfl

theorem driftFlags_driftLimit (c : RampConfig) (r : Ramp) :
    (driftFlags c r).driftLimit = true ↔ c.hardLimit < (r.angle - r.landingAngle).natAbs :=
  decide_eq_true_iff

/-! ## The statement -/

/-- Settles O59: the lemmas of the filter, the rounding, the sample and the velocity, then the checks of a driven sample in
their order, then the drift flags. -/
theorem samplesBecomeAnglesAndVelocities : Obligations.SamplesBecomeAnglesAndVelocities := by
  unfold Obligations.SamplesBecomeAnglesAndVelocities
  refine ⟨filteredCount_bounds, fun n d hd => roundedQuotient_nearest n hd, fun c raw stamp r => ?sample, velocityOf_nil,
    fun oldest rest x stamp => ?velocity, fun c tip stowed r valid drives stop creep => ?driven, fun c r => ?drift⟩
  case sample =>
    exact ⟨rfl, acceptSample_within c raw stamp r, acceptSample_below c raw stamp r, acceptSample_above c raw stamp r, rfl,
      acceptSample_first c raw stamp r, acceptSample_later c raw stamp r⟩
  case velocity =>
    refine ⟨velocityOf_no_interval oldest rest x stamp, fun interval small => ?_, velocityOf_limited oldest rest x stamp⟩
    rw [velocityOf_unlimited oldest rest x stamp interval small]
    exact tdiv_natCast_truncates _ interval
  case driven =>
    have arrival := reachesTarget_iff stop creep valid
    refine ⟨fun arrived => ?_, fun notArrived => ?_⟩
    · rw [drivenSample_of_reachesTarget (arrival.2 arrived)]
    have away : reachesTarget c r = false := Bool.eq_false_iff.2 (mt arrival.1 notArrived)
    by_cases beyond : beyondTravel c tip stowed r
    · rw [drivenSample_of_travelFault away (travelFault_of_beyondTravel beyond)]
      exact ⟨sampleBand_eq c r, fun _ => rfl, fun within => absurd beyond within⟩
    · rw [drivenSample_of_no_travelFault away (travelFault_of_not_beyondTravel drives beyond)]
      refine ⟨sampleBand_eq c r, fun h => absurd h beyond, fun _ => ?_⟩
      simp only [stalls_awayFromTarget_iff stop creep, wrongRunAfter_eq]
      exact ⟨trivial, fun third => if_pos third, fun run stalled => (if_neg (not_le.2 run)).trans (if_pos stalled),
        fun run goesOn => (if_neg (not_le.2 run)).trans (if_neg goesOn)⟩
  case drift =>
    refine ⟨fun warned => if_pos warned, fun cleared => ?_, fun within near => ?_, driftFlags_driftLimit c r⟩
    · rw [driftFlags_driftWarned, if_neg (by omega), if_pos cleared]
    · rw [driftFlags_driftWarned, if_neg (not_lt.2 within), if_neg (not_le.2 near)]

end Sys2Proof.Machine
end

section
/-! SUPPORT and proof of CANCEL CALL (R129): the records and the queues of the call unit through a withdrawal, an order that
fails a common check, an event that moves no ramp and no boundary, and the orders that such an event completes. -/

namespace Sys2Proof.Machine

/-! ## Tables -/

section
variable {α : Type} [Inhabited α] {n : Nat}

@[simp] theorem tmod_tmod (t : Vector α n) (i : Nat) (f g : α → α) :
    tmod (tmod t i f) i g = tmod t i (fun x => g (f x)) := by
  refine table_ext fun j hj => ?_
  rw [tget_tmod, tget_tmod, tget_tmod]
  split <;> rfl

/-- A change that leaves the entry as it is leaves the table. -/
theorem tmod_eq_self {t : Vector α n} {i : Nat} {f : α → α} (h : f (tget t i) = tget t i) : tmod t i f = t := by
  rw [tmod, h, tput_tget]

theorem tget_foldl_tmod (f : α → α) {l : List Nat} (hl : l.Nodup) (t : Vector α n) {i : Nat} (hi : i < n) :
    tget (l.foldl (fun t j => tmod t j f) t) i = if i ∈ l then f (tget t i) else tget t i := by
  induction l generalizing t with
  | nil => simp
  | cons j rest ih =>
    obtain ⟨hj, hrest⟩ := List.nodup_cons.1 hl
    rw [List.foldl_cons, ih hrest]
    by_cases h : j = i
    · subst h
      simp [hj, hi]
    · simp [h, Ne.symm h]

/-- One change after another of every entry is the change of the whole table. -/
theorem foldl_tmod_range (f : α → α) (t : Vector α n) :
    (List.range n).foldl (fun t j => tmod t j f) t = t.map f := by
  refine table_ext fun i hi => ?_
  rw [tget_foldl_tmod f List.nodup_range t hi, if_pos (List.mem_range.2 hi), tget_map f t hi]

end

/-! ## Records and queues: what plays, outputs and lamps leave alone -/

/-- The call records and the queues of the zones. -/
def callBook (w : Work) : Vector CallRecord 32 × Vector (List QueueEntry) 16 :=
  (w.records, w.zoneCalls.map fun zc => zc.queue)

theorem records_of_book {w w' : Work} (h : callBook w' = callBook w) : w'.records = w.records :=
  congrArg Prod.fst h

theorem queue_of_book {w w' : Work} (h : callBook w' = callBook w) {z : Nat} (hz : z < 16) :
    (tget w'.zoneCalls z).queue = (tget w.zoneCalls z).queue := by
  have hq : tget (w'.zoneCalls.map fun zc => zc.queue) z = tget (w.zoneCalls.map fun zc => zc.queue) z :=
    congrArg (fun b => tget b.2 z) h
  rwa [tget_map _ _ hz, tget_map _ _ hz] at hq

section
variable (e : Env) (w : Work)

@[simp] theorem callBook_modLine (l : LineId) (f : Line → Line) : callBook (modLine l f w) = callBook w := by
  cases l <;> rfl

theorem callBook_modZoneCalls (z : Nat) {f : ZoneCalls → ZoneCalls} (h : ∀ zc, (f zc).queue = zc.queue) :
    callBook (modZoneCalls z f w) = callBook w :=
  Prod.ext rfl (map_tmod w.zoneCalls z h)

@[simp] theorem callBook_modCallOutput (z : Nat) (f : CallOutput → CallOutput) :
    callBook (modCallOutput e z f w) = callBook w := by
  unfold modCallOutput
  split <;> rfl

@[simp] theorem callBook_endPlay (z : Nat) : callBook (endPlay z w) = callBook w := by
  have h := callBook_modZoneCalls w z (f := fun zc => { zc with timeout := none, pauseEnd := none }) fun _ => rfl
  unfold endPlay
  dsimp only
  split
  · exact h
  · exact h

@[simp] theorem callBook_startPlay (z : Nat) : callBook (startPlay e z w) = callBook w := by
  unfold startPlay
  split
  · rfl
  · exact (callBook_modCallOutput e _ z _).trans (callBook_modZoneCalls w z fun _ => rfl)

@[simp] theorem callBook_waitPlay (z : Nat) : callBook (waitPlay e z w) = callBook w :=
  (callBook_modCallOutput e _ z _).trans (callBook_modZoneCalls w z fun _ => rfl)

@[simp] theorem callBook_idlePlay (z : Nat) : callBook (idlePlay e z w) = callBook w :=
  (callBook_modCallOutput e _ z _).trans (callBook_modZoneCalls w z fun _ => rfl)

@[simp] theorem callBook_playHead (z : Nat) : callBook (playHead e z w) = callBook w := by
  unfold playHead
  split
  · exact callBook_idlePlay e w z
  · split
    · exact callBook_startPlay e w z
    · exact callBook_waitPlay e w z

/-- A queue that takes a new form is the only queue to change, and no record does (R135). -/
theorem callBook_withQueue (z : Nat) (q : List QueueEntry) :
    callBook (withQueue e z q w) = (w.records, tmod (w.zoneCalls.map fun zc => zc.queue) z fun _ => q) := by
  have written : callBook (modZoneCalls z (fun zc => { zc with queue := q }) w) =
      (w.records, tmod (w.zoneCalls.map fun zc => zc.queue) z fun _ => q) := by
    refine Prod.ext rfl (table_ext fun c hc => ?_)
    simp only [callBook, modZoneCalls_zoneCalls, tget_map _ _ hc, tget_tmod, apply_ite ZoneCalls.queue]
  unfold withQueue
  dsimp only
  split
  · exact (callBook_modCallOutput e _ z _).trans written
  · split
    · exact written
    · rw [callBook_playHead, callBook_endPlay, written]

/-- An entry leaves its queue (R135): no record changes, and every entry of the call is out of the queue. -/
theorem callBook_leaveQueue (z r : Nat) :
    callBook (leaveQueue e z r w) =
      (w.records, tmod (w.zoneCalls.map fun zc => zc.queue) z fun q => q.filter fun x => x.record != r) := by
  have written (q : List QueueEntry) (h : (tget w.zoneCalls z).queue.filter (fun x => x.record != r) = q) :
      (tmod (w.zoneCalls.map fun zc => zc.queue) z fun q => q.filter fun x => x.record != r) =
        tmod (w.zoneCalls.map fun zc => zc.queue) z fun _ => q := by
    refine table_ext fun c hc => ?_
    rw [tget_tmod, tget_tmod, tget_map _ _ hc]
    split
    · next at_z => rw [← at_z.1, h]
    · rfl
  unfold leaveQueue
  dsimp only
  split
  · rw [callBook_withQueue, written _ rfl]
  · next absent =>
    have kept : (tget w.zoneCalls z).queue.filter (fun x => x.record != r) = (tget w.zoneCalls z).queue := by
      rw [List.filter_eq_self]
      simpa using absent
    rw [written _ kept, tmod_eq_self]
    · rfl
    · by_cases hz : z < 16
      · rw [tget_map _ _ hz]
      · rw [tget_of_ge _ (by omega), tget_of_ge _ (by omega)]
        rfl

end

/-! ## Withdrawal of a call (R129) -/

/-- A call's progress in a zone when the call is withdrawn. -/
def withdrawnProgress (p : Progress) : Progress :=
  if p.outcome = .pending then { p with outcome := .withdrawn } else p

theorem withdrawnProgress_of_pending {p : Progress} (h : p.outcome = .pending) :
    withdrawnProgress p = { p with outcome := .withdrawn } := if_pos h

theorem withdrawnProgress_of_not_pending {p : Progress} (h : p.outcome ≠ .pending) : withdrawnProgress p = p := if_neg h

/-- No entry of the call `r` is in the queue of the zone `z`. -/
def outOfQueue (r z : Nat) (w : Work) : Prop := ∀ q ∈ (tget w.zoneCalls z).queue, q.record ≠ r

section
variable (e : Env) (w : Work) (r z : Nat)

theorem withdrawZone_of_pending (h : (tget (tget w.records r).progress z).outcome = .pending) :
    withdrawZone e r z w = leaveQueue e z r (setOutcome r z .withdrawn w) := if_pos h

theorem withdrawZone_of_not_pending (h : (tget (tget w.records r).progress z).outcome ≠ .pending) :
    withdrawZone e r z w = w := if_neg h

theorem withdrawZone_records :
    (withdrawZone e r z w).records =
      tmod w.records r fun x => { x with progress := tmod x.progress z withdrawnProgress } := by
  by_cases h : (tget (tget w.records r).progress z).outcome = .pending
  · have left : (withdrawZone e r z w).records = (setOutcome r z .withdrawn w).records := by
      rw [withdrawZone_of_pending e w r z h]
      exact congrArg Prod.fst (callBook_leaveQueue e _ z r)
    rw [left]
    simp only [setOutcome, modProgress, modRecord_records, tmod, withdrawnProgress_of_pending h]
  · rw [withdrawZone_of_not_pending e w r z h, tmod_eq_self]
    rw [tmod_eq_self (withdrawnProgress_of_not_pending h)]

theorem leaveQueue_queue {c : Nat} (hc : c < 16) :
    (tget (leaveQueue e z r w).zoneCalls c).queue =
      if z = c then (tget w.zoneCalls c).queue.filter (fun x => x.record != r) else (tget w.zoneCalls c).queue := by
  have h : tget ((leaveQueue e z r w).zoneCalls.map fun zc => zc.queue) c =
      tget (tmod (w.zoneCalls.map fun zc => zc.queue) z fun q => q.filter fun x => x.record != r) c :=
    congrArg (fun b => tget b.2 c) (callBook_leaveQueue e w z r)
  rw [tget_map _ _ hc, tget_tmod, tget_map _ _ hc] at h
  simpa [hc] using h

/-- A PENDING zone of a call is without an entry of it once it is withdrawn. -/
theorem outOfQueue_withdrawZone_of_pending (hz : z < 16)
    (h : (tget (tget w.records r).progress z).outcome = .pending) : outOfQueue r z (withdrawZone e r z w) := by
  rw [withdrawZone_of_pending e w r z h]
  unfold outOfQueue
  rw [leaveQueue_queue e _ r z hz, if_pos rfl]
  simp

/-- A withdrawal brings no entry into a queue. -/
theorem outOfQueue_withdrawZone {c : Nat} (hc : c < 16) (h : outOfQueue r c w) :
    outOfQueue r c (withdrawZone e r z w) := by
  by_cases hp : (tget (tget w.records r).progress z).outcome = .pending
  · rw [withdrawZone_of_pending e w r z hp]
    unfold outOfQueue
    rw [leaveQueue_queue e _ r z hc]
    split
    · simp
    · exact h
  · rwa [withdrawZone_of_not_pending e w r z hp]

/-- A withdrawal in one zone leaves the progress of the call in the others. -/
theorem withdrawZone_progress_ne {c : Nat} (h : z ≠ c) :
    tget (tget (withdrawZone e r z w).records r).progress c = tget (tget w.records r).progress c := by
  rw [withdrawZone_records, tget_tmod]
  split
  · exact tget_tmod_ne _ _ h
  · rfl

theorem each_withdrawZone_records (l : List Nat) :
    (each l (withdrawZone e r) w).records =
      tmod w.records r fun x => { x with progress := l.foldl (fun p z => tmod p z withdrawnProgress) x.progress } := by
  induction l generalizing w with
  | nil => exact (tmod_id w.records r).symm
  | cons c rest ih => rw [each_cons, ih, withdrawZone_records, tmod_tmod]; rfl

theorem outOfQueue_each_withdrawZone {l : List Nat} (hz : z < 16) (hl : z ∈ l)
    (h : (tget (tget w.records r).progress z).outcome = .pending) : outOfQueue r z (each l (withdrawZone e r) w) := by
  induction l generalizing w with
  | nil => cases hl
  | cons c rest ih =>
    rw [each_cons]
    by_cases hc : c = z
    · subst hc
      exact each_induct (P := outOfQueue r c) (fun x _ v hv => outOfQueue_withdrawZone e v r x hz hv)
        (outOfQueue_withdrawZone_of_pending e w r c hz h)
    · refine ih (withdrawZone e r c w) (List.mem_of_ne_of_mem (Ne.symm hc) hl) ?_
      rw [withdrawZone_progress_ne e w r c hc, h]

theorem withdrawAll_records :
    (withdrawAll e r w).records =
      tmod w.records r fun x => { x with progress := x.progress.map withdrawnProgress } := by
  simp only [← foldl_tmod_range]
  exact each_withdrawZone_records e w r (List.range 16)

theorem outOfQueue_withdrawAll (hz : z < 16) (h : (tget (tget w.records r).progress z).outcome = .pending) :
    outOfQueue r z (withdrawAll e r w) :=
  outOfQueue_each_withdrawZone e w r z hz (List.mem_range.2 hz) h

end

/-! ## CANCEL CALL at the call unit (R129) -/

theorem closeRecord_of_active {x : CallRecord} (h : x.state = .active) (now : Stamp) :
    closeRecord now x =
      { x with state := .free, endStamp := now, progress := x.progress.map withdrawnProgress } :=
  if_neg (by rw [h]; decide)

section
variable {e : Env} {w : Work} {r : Nat} {i : Byte} (slot : Nat)

theorem cancelRecord_of_not_matching (h : ¬ ((tget w.records r).state = .active ∧ (tget w.records r).issue = i)) :
    cancelRecord e slot r i w = complete slot .refusedTarget [] w := if_neg h

variable (h : (tget w.records r).state = .active ∧ (tget w.records r).issue = i) (hr : r < 32)
include h

theorem cancelRecord_of_matching :
    cancelRecord e slot r i w = complete slot .ok [] (endBridge e r .cancelled (withdrawAll e r w)) := if_pos h

theorem cancelRecord_zoneCalls : (cancelRecord e slot r i w).zoneCalls = (withdrawAll e r w).zoneCalls := by
  rw [cancelRecord_of_matching slot h]
  rfl

include hr

theorem cancelRecord_record :
    tget (cancelRecord e slot r i w).records r = closeRecord e.now (tget w.records r) := by
  have ended : (cancelRecord e slot r i w).records =
      tmod (withdrawAll e r w).records r fun x => { x with state := .free, endStamp := e.now } := by
    rw [cancelRecord_of_matching slot h]
    rfl
  rw [ended, withdrawAll_records, tmod_tmod, tget_tmod_self _ _ hr, closeRecord_of_active h.1]

/-- The CALL order is reported first, then the CANCEL CALL order. -/
theorem cancelRecord_outbox :
    (cancelRecord e slot r i w).outbox =
      w.outbox ++ [⟨(tget w.records r).sourceIndex, .cancelled, callDetail r (closeRecord e.now (tget w.records r))⟩,
        ⟨slot, .ok, []⟩] := by
  have withdrawn : tget (withdrawAll e r w).records r =
      { tget w.records r with progress := (tget w.records r).progress.map withdrawnProgress } := by
    rw [withdrawAll_records, tget_tmod_self _ _ hr]
  rw [cancelRecord_of_matching slot h, complete_outbox, endBridge, complete_outbox, outbox_endRecord, outbox_withdrawAll,
    withdrawn, closeRecord_of_active h.1, List.append_assoc]
  rfl

end

/-! ## The end of an event that moves no ramp and no boundary -/

theorem fireSet_congr {e e' : Env} {d d' : Deck} (hd : d'.boundaries = d.boundaries)
    (hc : ∀ b, boundaryConfig e'.ram b = boundaryConfig e.ram b) (u : Demand) : fireSet e' d' u = fireSet e d u := by
  simp only [fireSet, hd, hc]

@[simp] theorem boundaryMoved_self (x : Boundary) : boundaryMoved x x = false := by
  simp [boundaryMoved]

section
variable {e : Env} {old : Deck} {w : Work}

theorem settleBoundaries_of_unmoved (h : w.boundaries = old.boundaries) : settleBoundaries e old w = w :=
  each_induct (P := fun v => v = w) (fun b _ v hv => by subst hv; simp [settleBoundary, h]) rfl

theorem settleRamps_of_unmoved (h : w.ramps = old.ramps) : each (List.range 4) (settleRamp e old) w = w :=
  each_induct (P := fun v => v = w) (fun u _ v hv => by subst hv; simp [settleRamp, h]) rfl

theorem warningRequests_of_unmoved (h : w.ramps = old.ramps) : warningRequests e old w = w := by
  have unmoved : ((List.range 4).filter fun u => wantsMoved old w.toDeck u) = [] := by
    simp [wantsMoved, h]
  rw [warningRequests, unmoved, each_nil]

/-- The ramp channels and the boundary unit ask the call unit for nothing. -/
theorem callRequests_of_unmoved (hr : w.ramps = old.ramps)
    (hf : fireSet e w.toDeck .normal = old.fireNormal ∧ fireSet e w.toDeck .emergency = old.fireEmergency) :
    callRequests e old w = w := by
  have unmoved : fireMoved e old w = false := by simp [fireMoved, hf.1, hf.2]
  simp only [callRequests, unmoved, Bool.false_eq_true, if_false, warningRequests_of_unmoved hr]

@[simp] theorem rewriteSections_zoneCalls (force : Forced) :
    (rewriteSections force old w).zoneCalls = w.zoneCalls := rfl

theorem rewriteSections_records (force : Forced) :
    (rewriteSections force old w).records = Vector.zipWith rewriteRecord old.records w.records := rfl

theorem recordPublished_rewriteRecord (x y : CallRecord) :
    recordPublished (rewriteRecord x y) = recordPublished y := by
  unfold rewriteRecord
  split <;> rfl

variable (e w)

theorem callBook_settleZoneOrders : callBook (settleZoneOrders w) = callBook w := by
  refine each_keeps (p := callBook) (fun k _ v => ?_) w
  unfold settleZoneOrder
  dsimp only
  split <;> rfl

theorem callBook_settleZoneCalls (old : Deck) :
    callBook (each (List.range 16) (settleZoneCalls e old) w) = callBook w := by
  refine each_keeps (p := callBook) (fun z _ v => ?_) w
  unfold settleZoneCalls
  dsimp only
  split <;> rfl

theorem callBook_settleLine (l : LineId) : callBook (settleLine e l w) = callBook w := by
  have slotBegun (v : Work) : callBook (beginSlot l v) = callBook v := by
    unfold beginSlot
    dsimp only
    split
    · split <;> simp
    · rfl
  have testBegun (v : Work) : callBook (beginTest e l v) = callBook v := by
    unfold beginTest
    dsimp only
    split
    · split <;> simp
    · rfl
  rw [settleLine, testBegun, slotBegun, countMembers, callBook_modLine]

theorem settleRecord_zoneCalls (k : Nat) : (settleRecord e k w).zoneCalls = w.zoneCalls := by
  unfold settleRecord
  dsimp only
  split <;> rfl

theorem settleRecords_zoneCalls : (settleRecords e w).zoneCalls = w.zoneCalls := by
  unfold settleRecords
  exact each_keeps (p := fun v => v.zoneCalls) (f := fun k v => settleRecord e k v) (l := List.range 26)
    (fun k _ v => settleRecord_zoneCalls e v k) w

theorem endBridge_records (k : Nat) (result : Result) :
    (endBridge e k result w).records =
      tmod w.records k fun x => { x with state := .free, endStamp := e.now } := rfl

/-- A bridge record that is FREE stays as it is while the others are settled. -/
theorem settleRecord_of_free {r : Nat} (h : (tget w.records r).state = .free) (k : Nat) :
    tget (settleRecord e k w).records r = tget w.records r := by
  unfold settleRecord
  dsimp only
  split
  · next ends =>
    have hk : k ≠ r := by
      rintro rfl
      rw [h] at ends
      cases ends.1
    rw [endBridge_records, tget_tmod_ne _ _ hk]
  · rfl

theorem settleRecords_of_free {r : Nat} (h : (tget w.records r).state = .free) :
    tget (settleRecords e w).records r = tget w.records r := by
  unfold settleRecords
  exact each_induct (P := fun v => tget v.records r = tget w.records r) (f := fun k v => settleRecord e k v)
    (l := List.range 26) (fun k _ v hv => (settleRecord_of_free e v (by rw [hv, h]) k).trans hv) rfl

end

section
variable {e : Env} {old : Deck} {w : Work} (hr : w.ramps = old.ramps) (hb : w.boundaries = old.boundaries)

include hr in
theorem closeEvent_ramps_of_unmoved : (closeEvent e old w).ramps = old.ramps := by
  rw [closeEvent_ramps, hr]
  exact table_ext fun u hu => by simp [rewriteRamp]

include hb in
theorem closeEvent_boundaries_of_unmoved : (closeEvent e old w).boundaries = old.boundaries :=
  table_ext fun b hlt => by simp [closeEvent_boundary e old w hlt, hb, settledBoundary, rewriteBoundary]

variable (hf : fireSet e w.toDeck .normal = old.fireNormal ∧ fireSet e w.toDeck .emergency = old.fireEmergency)
include hr hb hf

theorem callBook_settledWork : callBook (settledWork e old w) = callBook (settleRecords e (settleZoneOrders w)) := by
  have kept : outsideClose (each (List.range 16) (settleZoneCalls e old) (settleRecords e (settleZoneOrders w))) =
      outsideClose w := by
    rw [each_keeps (p := outsideClose) (by intros; simp), outsideClose_of_calls (outsideCalls_settleRecords e _),
      outsideClose_settleZoneOrders]
  obtain ⟨_, ramps, _⟩ := fields_of_outsideClose kept
  unfold settledWork
  dsimp only
  rw [settleBoundaries_of_unmoved hb, callRequests_of_unmoved hr hf, callBook_settleLine, callBook_settleLine,
    settleRamps_of_unmoved (ramps.trans hr), callBook_settleZoneCalls]

theorem closeEvent_queue_of_unmoved {z : Nat} (hz : z < 16) :
    (tget (closeEvent e old w).zoneCalls z).queue = (tget w.zoneCalls z).queue :=
  calc (tget (closeEvent e old w).zoneCalls z).queue
      = (tget (settledWork e old w).zoneCalls z).queue := by rw [closeEvent_eq, rewriteSections_zoneCalls]
    _ = (tget (settleRecords e (settleZoneOrders w)).zoneCalls z).queue :=
        queue_of_book (callBook_settledWork hr hb hf) hz
    _ = (tget (settleZoneOrders w).zoneCalls z).queue := by rw [settleRecords_zoneCalls]
    _ = (tget w.zoneCalls z).queue := queue_of_book (callBook_settleZoneOrders w) hz

/-- A FREE record keeps everything but its edition. -/
theorem closeEvent_record_of_free {r : Nat} (hlt : r < 32) (free : (tget w.records r).state = .free) :
    recordPublished (tget (closeEvent e old w).records r) = recordPublished (tget w.records r) := by
  have before : (settleZoneOrders w).records = w.records := records_of_book (callBook_settleZoneOrders w)
  have settled : tget (settledWork e old w).records r = tget w.records r := by
    rw [records_of_book (callBook_settledWork hr hb hf), settleRecords_of_free e _ (by rw [before, free]), before]
  rw [closeEvent_eq, rewriteSections_records, tget_zipWith _ _ _ hlt, settled, recordPublished_rewriteRecord]

end

/-! ## Orders: refused at the common checks, and completed by the event of another -/

section
variable {kind slot : Nat} {s : State}

theorem arrivals_of_offers (h : s.offers kind slot) : ∃ rest, s.arrivals = slot :: rest := by
  obtain ⟨_, _, _, _, head, _, _⟩ := h
  exact List.head?_eq_some_iff.1 head

/-- An order that fails a common check is taken and completes at once (R174). -/
theorem intake_of_commonCheck (h : s.offers kind slot) {result : Result} {byte : Nat}
    (hc : commonCheck kind slot s = some (result, byte)) (act : Nat → State → State) :
    intake kind act s = completeNow slot result [byteOf byte] (takeSlot slot s) := by
  obtain ⟨rest, first⟩ := arrivals_of_offers h
  obtain ⟨running, _, _, hs, _, _, hk⟩ := h
  unfold intake intakeWhere
  rw [if_pos running, first]
  simp only [hk, beq_self_eq_true, if_true, intakeSlot, commonCheck_takeSlot hs, hc]

theorem slotQuiet_takeSlot (k : Nat) : slotQuiet (takeSlot slot s).ram k = slotQuiet s.ram k := by
  have outside : ¬ inIntake slot (slotBase k + 3) := by
    unfold inIntake slotBase
    omega
  rw [slotQuiet, slotQuiet, takeSlot_ram_out s outside]

@[simp] theorem completeNow_toDeck (k : Nat) (r : Result) (d : List Byte) (s : State) :
    (completeNow k r d s).toDeck = s.toDeck := by simp [completeNow]
@[simp] theorem completeNow_hostSide (k : Nat) (r : Result) (d : List Byte) (s : State) :
    (completeNow k r d s).hostSide = s.hostSide := by simp [completeNow]
@[simp] theorem completeNow_serviceSide (k : Nat) (r : Result) (d : List Byte) (s : State) :
    (completeNow k r d s).serviceSide = s.serviceSide := by simp [completeNow]

theorem taken_completeNow (h : s.offers kind slot) (result : Result) (detail : List Byte) :
    taken s (completeNow slot result detail (takeSlot slot s)) slot := by
  obtain ⟨_, canonical, _, _, _, _, _⟩ := h
  obtain ⟨_, _, stamped, _⟩ := takeSlot_ram_in (slot := slot) canonical
  refine ⟨by simp [completeNow], fun i hi => ?_⟩
  have outside : ¬ inResult slot (slotBase slot + 48 + i) := by
    unfold inResult
    omega
  rw [completeNow, refresh_ram, completeSlot_ram_out _ _ (fun _ => outside), stamped i hi]

theorem completed_completeNow (h : s.offers kind slot) (result : Result) (detail : List Byte) :
    completed s (completeNow slot result detail (takeSlot slot s)) slot result detail := by
  obtain ⟨_, canonical, _, hs, _, _, _⟩ := h
  have inHand : tget (takeSlot slot s).hands slot = .taken := by simp [takeSlot, hs]
  have done := completeSlot_self (c := ⟨slot, result, detail⟩) (wf_takeSlot (slot := slot) canonical) hs inHand
  rw [slotQuiet_takeSlot, takeSlot_deckClock] at done
  unfold completed
  simp only [completeNow, refresh_hands, refresh_orderDone, refresh_ram]
  split
  · next quiet => rw [if_pos quiet] at done; exact done.1
  · next loud => rwa [if_neg loud] at done

/-- A unit's report for an order in hand, with no report for its slot before it, completes that order in the event of the
order just taken (R175). -/
theorem completed_runUnits_of_taken (h : s.offers kind slot) {k : Nat} (hk : k < 32) (held : tget s.hands k = .taken)
    (f : Env → Work → Work) {l r : List Completion} {result : Result} {detail : List Byte}
    (hf : (closeEvent (takeSlot slot s).env s.toDeck (f (takeSlot slot s).env s.work)).outbox =
      l ++ ⟨k, result, detail⟩ :: r)
    (hl : ∀ d ∈ l, d.slot ≠ k) : completed s (runUnits f (takeSlot slot s)) k result detail := by
  obtain ⟨_, canonical, _, hs, _, posted, _⟩ := h
  have apart : slot ≠ k := by
    rintro rfl
    rw [posted] at held
    cases held
  have inHand : tget (takeSlot slot s).hands k = .taken := (tget_tput_ne s.hands _ apart).trans held
  rw [← takeSlot_toDeck slot s, ← takeSlot_work slot s] at hf
  unfold completed
  rw [← slotQuiet_takeSlot (slot := slot), ← takeSlot_deckClock slot s]
  have canonical' := wf_takeSlot (slot := slot) canonical
  generalize takeSlot slot s = t at *
  rw [runUnits, refresh_hands, refresh_orderDone, refresh_ram, absorb_eq, hf]
  exact completeAll_completed (c := ⟨k, result, detail⟩) (s := withUnits _ t) canonical' hk inHand hl

end

/-- An ACTIVE bridge record holds its CALL order (R125). -/
theorem sourceIndex_mem_heldOrders {s : State} {r : Nat} (hr : r < 26) (h : (tget s.records r).state = .active) :
    (tget s.records r).sourceIndex ∈ s.heldOrders := by
  have listed : tget s.records r ∈ s.records.toList.take 26 := by
    rw [tget_of_lt _ (by omega : r < 32), List.mem_take_iff_getElem]
    exact ⟨r, by simp; omega, by simp⟩
  unfold State.heldOrders
  exact List.mem_append_right _ (List.mem_map_of_mem (List.mem_filter.2 ⟨listed, by simp [h]⟩))

/-! ## The CANCEL CALL order -/

/-- The common checks of CANCEL CALL: the part state, then the record number (R174). -/
theorem commonCheck_cancelCall (slot : Nat) (s : State) :
    commonCheck 41 slot s =
      if s.partState = .setup then some (.refusedState, 0)
      else if 25 < slotTarget s.ram slot then some (.refusedTarget, slotTarget s.ram slot)
      else none := by
  have known : knownKinds.contains 41 = true := by decide
  have target : targetInRange 41 (slotTarget s.ram slot) s = decide (slotTarget s.ram slot ≤ 25) := rfl
  unfold commonCheck
  rw [known, target]
  cases part : s.partState
  case setup => rfl
  all_goals
    by_cases beyond : 25 < slotTarget s.ram slot
    · simp [takenIn, beyond]
    · simp [takenIn, not_lt.1 beyond]

/-- What the call unit does with the order of `slot`: the record and the issue number are read from the order. -/
def cancelOrder (s : State) (slot : Nat) (e : Env) (w : Work) : Work :=
  cancelRecord e slot (slotTarget s.ram slot) (byteOf (slotByte s.ram slot 8)) w

theorem exec_cancelCall_of_takes {s : State} {slot : Nat} (h : s.takes 41 slot) :
    exec .cancelCall s = .next (runUnits (cancelOrder s slot) (takeSlot slot s)) := by
  have same := sameOutside_takeSlot slot s
  have read : cancelRecord (takeSlot slot s).env slot (orderTarget (takeSlot slot s).env slot)
      (byteOf (orderByte (takeSlot slot s).env slot 8)) = cancelOrder s slot (takeSlot slot s).env := by
    rw [orderTarget, orderByte, takeSlot_env_ram, same_slotTarget same, same_slotByte same (off := 8) (by omega)]
    rfl
  have run : exec .cancelCall s = .next (unitIntake 41
      (fun e slot => cancelRecord e slot (orderTarget e slot) (byteOf (orderByte e slot 8))) s) := rfl
  rw [run, unitIntake_takes h]
  unfold runUnits
  dsimp only
  rw [read]

theorem exec_cancelCall_of_commonCheck {s : State} {slot : Nat} (h : s.offers 41 slot) {result : Result} {byte : Nat}
    (hc : commonCheck 41 slot s = some (result, byte)) :
    exec .cancelCall s = .next (completeNow slot result [byteOf byte] (takeSlot slot s)) :=
  congrArg Host.Outcome.next (intake_of_commonCheck h hc _)

/-- The work of CANCEL CALL before the end of its event. -/
def cancelWork (s : State) (slot : Nat) : Work := cancelOrder s slot (takeSlot slot s).env s.work

/-- The state after a CANCEL CALL that passes the common checks. -/
def cancelled (s : State) (slot : Nat) : State := runUnits (cancelOrder s slot) (takeSlot slot s)

section
variable (s : State) (slot : Nat)

theorem cancelled_toDeck :
    (cancelled s slot).toDeck = (closeEvent (takeSlot slot s).env s.toDeck (cancelWork s slot)).toDeck := by
  rw [cancelled, runUnits_toDeck, takeSlot_toDeck, takeSlot_work]
  rfl

theorem outsideCalls_cancelWork : outsideCalls (cancelWork s slot) = outsideCalls s.work :=
  outsideCalls_cancelRecord _ _ _ _ _

theorem cancelWork_ramps : (cancelWork s slot).ramps = s.ramps :=
  ramps_of_calls (outsideCalls_cancelWork s slot)

theorem cancelWork_boundaries : (cancelWork s slot).boundaries = s.boundaries :=
  boundaries_of_calls (outsideCalls_cancelWork s slot)

theorem cancelled_ramps : (cancelled s slot).ramps = s.ramps := by
  rw [cancelled_toDeck]
  exact closeEvent_ramps_of_unmoved (cancelWork_ramps s slot)

theorem cancelled_boundaries : (cancelled s slot).boundaries = s.boundaries := by
  rw [cancelled_toDeck]
  exact closeEvent_boundaries_of_unmoved (cancelWork_boundaries s slot)

end

/-- CANCEL CALL brings no change to the warning zone sets, so its event has no handover (R121). -/
theorem cancelWork_fireSets {s : State} {slot : Nat} (hs : slot < 32) (sets : s.warningSetsAgree) :
    fireSet (takeSlot slot s).env (cancelWork s slot).toDeck .normal = s.fireNormal ∧
      fireSet (takeSlot slot s).env (cancelWork s slot).toDeck .emergency = s.fireEmergency := by
  have config (b : Nat) : boundaryConfig (takeSlot slot s).env.ram b = boundaryConfig s.env.ram b := by
    rw [takeSlot_env_ram]
    exact same_boundaryConfig (sameOutside_takeSlot slot s) hs b
  have same := fireSet_congr (d := s.toDeck) (cancelWork_boundaries s slot) config
  exact ⟨(same _).trans sets.1, (same _).trans sets.2⟩

/-- The record that a CANCEL CALL order names. -/
abbrev namedRecord (s : State) (slot : Nat) : CallRecord := tget s.records (slotTarget s.ram slot)

/-- The record and the issue number of a CANCEL CALL order name an ACTIVE call. -/
def namesCall (s : State) (slot : Nat) : Prop :=
  (namedRecord s slot).state = .active ∧ (namedRecord s slot).issue = byteOf (slotByte s.ram slot 8)

section
variable {s : State} {slot : Nat}

theorem completed_cancelled_of_not_namesCall (h : s.takes 41 slot) (unnamed : ¬ namesCall s slot) :
    completed s (cancelled s slot) slot .refusedTarget [] := by
  have refused : cancelWork s slot = complete slot .refusedTarget [] s.work := cancelRecord_of_not_matching slot unnamed
  obtain ⟨rest, outbox⟩ := closeEvent_outbox (takeSlot slot s).env s.toDeck (cancelWork s slot)
  refine completed_runUnits h (cancelOrder s slot) (l := []) (r := rest) ?_ (by simp)
  rw [cancelWork] at outbox refused
  rw [outbox, refused]
  rfl

variable (named : namesCall s slot)
include named

/-- The reports of the event: the CALL order, the CANCEL CALL order, and what the end of the event adds (R129). -/
theorem cancelled_outbox (hr : slotTarget s.ram slot ≤ 25) :
    ∃ rest, (closeEvent (takeSlot slot s).env s.toDeck (cancelWork s slot)).outbox =
      [⟨(namedRecord s slot).sourceIndex, .cancelled,
          callDetail (slotTarget s.ram slot) (closeRecord s.deckClock (namedRecord s slot))⟩, ⟨slot, .ok, []⟩] ++ rest := by
  obtain ⟨rest, outbox⟩ := closeEvent_outbox (takeSlot slot s).env s.toDeck (cancelWork s slot)
  have reports := cancelRecord_outbox (e := (takeSlot slot s).env) (w := s.work) slot named (by omega)
  rw [takeSlot_env_now] at reports
  exact ⟨rest, outbox.trans (congrArg (· ++ rest) reports)⟩

variable (h : s.takes 41 slot)
include h

/-- The CALL order of the call is in hand, and it is not the order just taken (R175). -/
theorem sourceIndex_held (hr : slotTarget s.ram slot ≤ 25) :
    (namedRecord s slot).sourceIndex < 32 ∧
      tget s.hands (namedRecord s slot).sourceIndex = .taken ∧
      (namedRecord s slot).sourceIndex ≠ slot := by
  obtain ⟨⟨_, _, ⟨_, held⟩, _, _, posted, _⟩, _⟩ := h
  obtain ⟨inTable, inHand⟩ := held _ (sourceIndex_mem_heldOrders (by omega) named.1)
  refine ⟨inTable, inHand, fun same => ?_⟩
  rw [same, posted] at inHand
  cases inHand

theorem completed_cancelled_of_namesCall (hr : slotTarget s.ram slot ≤ 25) :
    completed s (cancelled s slot) slot .ok [] := by
  obtain ⟨_, _, apart⟩ := sourceIndex_held named h hr
  obtain ⟨rest, outbox⟩ := cancelled_outbox named hr
  exact completed_runUnits h (cancelOrder s slot) (l := [_]) (r := rest) outbox (by simpa using apart)

theorem completed_call_of_namesCall (hr : slotTarget s.ram slot ≤ 25) :
    completed s (cancelled s slot) (namedRecord s slot).sourceIndex .cancelled
      (callDetail (slotTarget s.ram slot) (closeRecord s.deckClock (namedRecord s slot))) := by
  obtain ⟨inTable, inHand, _⟩ := sourceIndex_held named h hr
  obtain ⟨rest, outbox⟩ := cancelled_outbox named hr
  exact completed_runUnits_of_taken h.1 inTable inHand (cancelOrder s slot) (l := []) (r := _ :: rest) outbox (by simp)

variable (sets : s.warningSetsAgree)
include sets

theorem cancelled_record (hr : slotTarget s.ram slot ≤ 25) :
    recordPublished (tget (cancelled s slot).records (slotTarget s.ram slot)) =
      recordPublished (closeRecord s.deckClock (namedRecord s slot)) := by
  obtain ⟨⟨_, _, _, hs, _, _, _⟩, _⟩ := h
  have closed : tget (cancelWork s slot).records (slotTarget s.ram slot) = closeRecord s.deckClock (namedRecord s slot) := by
    rw [← takeSlot_env_now slot s]
    exact cancelRecord_record (e := (takeSlot slot s).env) (w := s.work) slot named (by omega)
  have free : (tget (cancelWork s slot).records (slotTarget s.ram slot)).state = .free := by
    rw [closed, closeRecord_of_active named.1]
  rw [cancelled_toDeck, ← closed]
  exact closeEvent_record_of_free (cancelWork_ramps s slot) (cancelWork_boundaries s slot) (cancelWork_fireSets hs sets)
    (by omega) free

/-- Every PENDING zone of the call has no entry of it in its queue any longer (R129, R135). -/
theorem cancelled_queue {z : Nat} (hz : z < 16)
    (pending : (tget (namedRecord s slot).progress z).outcome = .pending) :
    ∀ q ∈ (tget (cancelled s slot).zoneCalls z).queue, q.record ≠ slotTarget s.ram slot := by
  obtain ⟨⟨_, _, _, hs, _, _, _⟩, _⟩ := h
  have withdrawn : (cancelWork s slot).zoneCalls =
      (withdrawAll (takeSlot slot s).env (slotTarget s.ram slot) s.work).zoneCalls := cancelRecord_zoneCalls slot named
  rw [cancelled_toDeck, closeEvent_queue_of_unmoved (cancelWork_ramps s slot) (cancelWork_boundaries s slot)
    (cancelWork_fireSets hs sets) hz, withdrawn]
  exact outOfQueue_withdrawAll (takeSlot slot s).env s.work (slotTarget s.ram slot) z hz pending

end

/-- Settles O43: the common checks refuse in SETUP and above record 25; past them the call unit refuses a record and an issue
number that name no call, and otherwise withdraws every PENDING zone and ends the record, which stays FREE to the end of the
event. -/
theorem cancelCallWithdrawsTheCall : Obligations.CancelCallWithdrawsTheCall := by
  unfold Obligations.CancelCallWithdrawsTheCall
  intro s slot offered sets r x matching
  have check := commonCheck_cancelCall slot s
  by_cases setup : s.partState = .setup
  · rw [if_pos setup] at check
    refine ⟨_, exec_cancelCall_of_commonCheck offered check, taken_completeNow offered _ _, by simp, by simp, by simp,
      by simp, fun _ => ?_, fun out => absurd setup out, fun out => absurd setup out, fun out => absurd setup out⟩
    exact ⟨completed_completeNow offered _ _, by simp⟩
  rw [if_neg setup] at check
  by_cases beyond : 25 < slotTarget s.ram slot
  · rw [if_pos beyond] at check
    refine ⟨_, exec_cancelCall_of_commonCheck offered check, taken_completeNow offered _ _, by simp, by simp, by simp,
      by simp, fun inSetup => absurd inSetup setup, fun _ _ => ?_, fun _ within => absurd beyond (not_lt.2 within),
      fun _ within => absurd beyond (not_lt.2 within)⟩
    exact ⟨completed_completeNow offered _ _, by simp⟩
  rw [if_neg beyond] at check
  have takes : s.takes 41 slot := ⟨offered, check⟩
  refine ⟨cancelled s slot, exec_cancelCall_of_takes takes, taken_runUnits takes _, by simp [cancelled],
    by simp [cancelled], cancelled_ramps s slot, cancelled_boundaries s slot, fun inSetup => absurd inSetup setup,
    fun _ out => absurd out beyond, fun _ _ unnamed => completed_cancelled_of_not_namesCall takes unnamed,
    fun _ within named => ?_⟩
  have closed := cancelled_record named takes sets within
  rw [closeRecord_of_active named.1] at closed
  have progress : (tget (cancelled s slot).records r).progress = x.progress.map withdrawnProgress :=
    congrArg CallRecord.progress closed
  refine ⟨completed_cancelled_of_namesCall named takes within, completed_call_of_namesCall named takes within,
    congrArg CallRecord.state closed, congrArg CallRecord.endStamp closed, (congrArg CallRecord.issue closed :),
    fun z hz => ⟨fun pending => ⟨?_, cancelled_queue named takes sets hz pending⟩, fun decided => ?_⟩⟩
  · rw [progress, tget_map _ _ hz, withdrawnProgress_of_pending pending]
  · rw [progress, tget_map _ _ hz, withdrawnProgress_of_not_pending decided]

end Sys2Proof.Machine
end

section
/-! SUPPORT and proof of UNMUTE STATION (R152): the common checks of the order, the station that it leaves at the end of its
event, and the frame of that event. -/

namespace Sys2Proof.Machine

/-! ## Station addresses -/

theorem mem_addresses_iff {n : Nat} : n ∈ addresses ↔ 1 ≤ n ∧ n ≤ 48 := by
  simp only [addresses, List.mem_map, List.mem_range]
  constructor
  · rintro ⟨i, hi, rfl⟩
    omega
  · intro h
    exact ⟨n - 1, by omega, by omega⟩

theorem stationIndex_of_mem {n : Nat} (h : n ∈ addresses) : stationIndex n = n - 1 := by
  have named := mem_addresses_iff.1 h
  exact if_neg (by omega)

theorem stationIndex_lt {n : Nat} (h : n ∈ addresses) : stationIndex n < 48 := by
  have named := mem_addresses_iff.1 h
  rw [stationIndex_of_mem h]
  omega

theorem stationIndex_inj {n k : Nat} (hn : n ∈ addresses) (hk : k ∈ addresses) :
    stationIndex n = stationIndex k ↔ n = k := by
  have n_named := mem_addresses_iff.1 hn
  have k_named := mem_addresses_iff.1 hk
  rw [stationIndex_of_mem hn, stationIndex_of_mem hk]
  omega

/-- A change of one station reaches that station and no other. -/
theorem stationOf_modStation {n a : Nat} (hn : n ∈ addresses) (ha : a ∈ addresses) (f : Station → Station) (w : Work) :
    stationOf (modStation a f w).toDeck n = if n = a then f (stationOf w.toDeck n) else stationOf w.toDeck n := by
  have reached : stationIndex a = stationIndex n ∧ stationIndex n < 48 ↔ n = a := by
    rw [stationIndex_inj ha hn, and_iff_left (stationIndex_lt hn), eq_comm]
  simp only [stationOf, modStation_stations, tget_tmod, reached]

/-! ## The end of an event (R50) -/

theorem rewriteStation_self (x : Station) : rewriteStation false x x = x := by
  simp [rewriteStation]

theorem rewriteCell_self (x : AttentionCell) : rewriteCell false x x = x := by
  simp [rewriteCell]

section
variable (e : Env) (old : Deck) (w : Work)

/-- The end of an event moves on the edition of a station that changed, and no more. -/
theorem closeEvent_stationOf {n : Nat} (h : n ∈ addresses) :
    stationOf (closeEvent e old w).toDeck n = rewriteStation false (stationOf old n) (stationOf w.toDeck n) := by
  rw [stationOf, closeEvent_stations, tget_zipWith _ _ _ (stationIndex_lt h)]
  rfl

variable {e old w}

theorem closeEvent_cells_of_unchanged (h : w.cells = old.cells) : (closeEvent e old w).cells = old.cells := by
  rw [closeEvent_cells, h]
  exact table_ext fun c hc => by rw [tget_zipWith _ _ _ hc, rewriteCell_self]

end

/-! ## The station whose mute is cleared (R152) -/

/-- A station with its mute cleared, its edition apart. -/
def clearedMute (x : Station) : Station := { x with muted := false, mutedCount := 0 }

theorem unmuteStation_eq (addr : Nat) (w : Work) : unmuteStation addr w = modStation addr clearedMute w := rfl

/-- The flag and the count are published, so clearing them rewrites the station status just when one of them changes. -/
theorem stationPublished_clearedMute_ne_iff (x : Station) :
    stationPublished x ≠ stationPublished (clearedMute x) ↔ x.muted = true ∨ x.mutedCount ≠ 0 := by
  have same : stationPublished x = stationPublished (clearedMute x) ↔ x.muted = false ∧ x.mutedCount = 0 := by
    simp [stationPublished, clearedMute]
  rw [Ne, same, not_and_or, Bool.not_eq_false]

theorem clearedMute_of_unmuted {x : Station} (h : ¬ (x.muted = true ∨ x.mutedCount ≠ 0)) : clearedMute x = x := by
  obtain ⟨flag, count⟩ := not_or.1 h
  rw [clearedMute, ← Bool.eq_false_of_not_eq_true flag, ← not_not.1 count]

theorem rewriteStation_clearedMute (x : Station) :
    rewriteStation false x (clearedMute x) =
      if x.muted = true ∨ x.mutedCount ≠ 0 then { x with muted := false, mutedCount := 0, edition := x.edition + 2 }
      else x := by
  rw [rewriteStation]
  simp only [stationPublished_clearedMute_ne_iff, Bool.false_eq_true, false_or]
  split
  · rfl
  · next clear => exact clearedMute_of_unmuted clear

/-! ## The UNMUTE STATION order -/

/-- The target of the order in `slot` is a station with a kind in the working copy. -/
def namesStation (s : State) (slot : Nat) : Prop :=
  1 ≤ slotTarget s.ram slot ∧ slotTarget s.ram slot ≤ 48 ∧ (workingOf s.toDeck (slotTarget s.ram slot)).kind ≠ .none

theorem mem_addresses_of_namesStation {s : State} {slot : Nat} (h : namesStation s slot) :
    slotTarget s.ram slot ∈ addresses := by
  obtain ⟨low, high, _⟩ := h
  exact mem_addresses_iff.2 ⟨low, high⟩

theorem targetInRange_unmuteStation_iff (s : State) (slot : Nat) :
    targetInRange 16 (slotTarget s.ram slot) s = true ↔ namesStation s slot := by
  simp [targetInRange, within, namesStation, and_assoc]

section
variable {s : State} {slot : Nat}

/-! The common checks of UNMUTE STATION: the part state, then the station (R174). -/

theorem commonCheck_unmuteStation_setup (setup : s.partState = .setup) :
    commonCheck 16 slot s = some (.refusedState, 0) := by
  rw [commonCheck, setup]
  rfl

theorem takenIn_unmuteStation {p : PartState} (h : p ≠ .setup) : takenIn 16 p = true := by
  cases p
  case setup => exact absurd rfl h
  case service => rfl
  case safeHold => rfl

theorem commonCheck_unmuteStation_unnamed (out : s.partState ≠ .setup) (unnamed : ¬ namesStation s slot) :
    commonCheck 16 slot s = some (.refusedTarget, slotTarget s.ram slot) := by
  have beyond := Bool.eq_false_of_not_eq_true (mt (targetInRange_unmuteStation_iff s slot).1 unnamed)
  rw [commonCheck, takenIn_unmuteStation out, beyond]
  rfl

theorem commonCheck_unmuteStation_named (out : s.partState ≠ .setup) (named : namesStation s slot) :
    commonCheck 16 slot s = none := by
  rw [commonCheck, takenIn_unmuteStation out, (targetInRange_unmuteStation_iff s slot).2 named]
  rfl

theorem exec_unmuteStation_of_commonCheck (h : s.offers 16 slot) {result : Result} {byte : Nat}
    (hc : commonCheck 16 slot s = some (result, byte)) :
    exec .unmuteStation s = .next (completeNow slot result [byteOf byte] (takeSlot slot s)) :=
  congrArg Host.Outcome.next (intake_of_commonCheck h hc _)

end

/-- What the attention unit does with the order of `slot`: the station is read from the order. -/
def unmuteOrder (s : State) (slot : Nat) (w : Work) : Work :=
  complete slot .ok [] (unmuteStation (slotTarget s.ram slot) w)

/-- The state after an UNMUTE STATION that passes the common checks. -/
def unmuted (s : State) (slot : Nat) : State := runUnits (fun _ => unmuteOrder s slot) (takeSlot slot s)

theorem exec_unmuteStation_of_takes {s : State} {slot : Nat} (h : s.takes 16 slot) :
    exec .unmuteStation s = .next (unmuted s slot) := by
  have read : orderTarget (takeSlot slot s).env slot = slotTarget s.ram slot := by
    rw [orderTarget, takeSlot_env_ram, same_slotTarget (sameOutside_takeSlot slot s)]
  have run : exec .unmuteStation s = .next (unitIntake 16
      (fun e slot w => complete slot .ok [] (unmuteStation (orderTarget e slot) w)) s) := rfl
  rw [run, unitIntake_takes h, unmuted]
  unfold runUnits
  dsimp only
  rw [read]
  rfl

section
variable (s : State) (slot : Nat)

theorem unmuted_toDeck :
    (unmuted s slot).toDeck = (closeEvent (takeSlot slot s).env s.toDeck (unmuteOrder s slot s.work)).toDeck := by
  rw [unmuted, runUnits_toDeck, takeSlot_toDeck, takeSlot_work]

theorem unmuted_ramps : (unmuted s slot).ramps = s.ramps := by
  rw [unmuted_toDeck]
  exact closeEvent_ramps_of_unmoved rfl

theorem unmuted_cells : (unmuted s slot).cells = s.cells := by
  rw [unmuted_toDeck]
  exact closeEvent_cells_of_unchanged rfl

end

section
variable {s : State} {slot : Nat}

theorem completed_unmuted (h : s.takes 16 slot) : completed s (unmuted s slot) slot .ok [] := by
  obtain ⟨rest, outbox⟩ := closeEvent_outbox (takeSlot slot s).env s.toDeck (unmuteOrder s slot s.work)
  exact completed_runUnits h (fun _ => unmuteOrder s slot) (l := []) (r := rest) outbox (by simp)

/-- Every station after the order: the one it names with its mute cleared, and every other as it was (R152). -/
theorem unmuted_stationOf (named : namesStation s slot) {n : Nat} (hn : n ∈ addresses) :
    stationOf (unmuted s slot).toDeck n =
      if n = slotTarget s.ram slot then rewriteStation false (stationOf s.toDeck n) (clearedMute (stationOf s.toDeck n))
      else stationOf s.toDeck n := by
  have acted := stationOf_modStation hn (mem_addresses_of_namesStation named) clearedMute s.work
  rw [unmuted_toDeck, closeEvent_stationOf _ _ _ hn, unmuteOrder, complete_toDeck, unmuteStation_eq, acted]
  split
  · rfl
  · exact rewriteStation_self _

end

/-- Settles O32: the common checks refuse in SETUP and without a configured station; past them the event changes one station,
whose status is rewritten just when the flag or the count was set. -/
theorem unmuteStationClearsTheMute : Obligations.UnmuteStationClearsTheMute := by
  unfold Obligations.UnmuteStationClearsTheMute
  intro s slot offered addr configured
  by_cases setup : s.partState = .setup
  · refine ⟨_, exec_unmuteStation_of_commonCheck offered (commonCheck_unmuteStation_setup setup),
      taken_completeNow offered _ _, by simp, by simp, by simp, by simp,
      fun _ => ⟨completed_completeNow offered _ _, by simp⟩, fun out => absurd setup out, fun out => absurd setup out⟩
  by_cases named : namesStation s slot
  · have takes : s.takes 16 slot := ⟨offered, commonCheck_unmuteStation_named setup named⟩
    refine ⟨unmuted s slot, exec_unmuteStation_of_takes takes, taken_runUnits takes _, by simp [unmuted], by simp [unmuted],
      unmuted_cells s slot, unmuted_ramps s slot, fun inSetup => absurd inSetup setup,
      fun _ unnamed => absurd named unnamed, fun _ _ => ⟨completed_unmuted takes, fun n hn => ?_⟩⟩
    rw [unmuted_stationOf named hn, rewriteStation_clearedMute, ite_and]
  · refine ⟨_, exec_unmuteStation_of_commonCheck offered (commonCheck_unmuteStation_unnamed setup named),
      taken_completeNow offered _ _, by simp, by simp, by simp, by simp, fun inSetup => absurd inSetup setup,
      fun _ _ => ⟨completed_completeNow offered _ _, by simp⟩, fun _ isNamed => absurd isNamed named⟩

end Sys2Proof.Machine
end

section
/-! SUPPORT and proof of the identity words and the deck clock (R158, R166): the words of the header as the host reads them, a
host access that is answered at once, the header words that are the part's own, and what a bridge reset keeps of the host's
side. -/

namespace Sys2Proof.Machine

/-! ## Header words as the host reads them (R157) -/

/-- A word is put together from its two bytes, low byte first (0.6.5). -/
theorem highByte_shift_or_lowByte (w : Word) : (highByte w).setWidth 16 <<< 8 ||| (lowByte w).setWidth 16 = w := by
  have written := memReadWord_memWriteWord (m := []) rfl 0 w
  rwa [memReadWord, memRead_memWriteWord_low rfl, memRead_memWriteWord_high rfl] at written

section
variable {s : State}

/-- The identity word and the exchange version word are held in the memory. -/
theorem exchangeRead_of_lt_four {a : Nat} (h : a + 1 < 4) : exchangeRead s a = memReadWord s.ram a := by
  rw [exchangeRead, exchangeByte, exchangeByte, if_pos h, if_pos (by omega), memReadWord]

/-- Over the memory that the power-on clear leaves, the header carries the codes of the part (R166, R168). -/
theorem exchangeRead_identity_of_cleared (h : s.ram = [(0, 0x14), (1, 0x0D), (2, 0x01)]) :
    exchangeRead s 0x00 = 0x0D14 ∧ exchangeRead s 0x02 = 1 := by
  rw [exchangeRead_of_lt_four (by omega), exchangeRead_of_lt_four (by omega), h]
  decide

end

section
variable (s : State)

theorem exchangeRead_clockLow : exchangeRead s 0x08 = s.deckClock.extractLsb' 0 16 := by
  rw [← BitVec.setWidth_eq_extractLsb' (by omega)]
  exact highByte_shift_or_lowByte _

theorem exchangeRead_clockHigh : exchangeRead s 0x0A = s.clockLatch :=
  highByte_shift_or_lowByte _

theorem registerRead_ident : registerRead s 2 = identWord := rfl

end

/-! ## Accesses that are answered at once (R164, R165, R168) -/

section
variable {s : State}

theorem hostAccess_of_answers (h : s.answers) (a : HostAccess) : hostAccess a s = serveAccess a s := by
  obtain ⟨running, settled, enabled⟩ := h
  simp [hostAccess, holdsAccesses, running, settled, enabled]

/-- The low word of the deck clock and the latch in one access (R158). -/
theorem exec_deckClockLowRead_of_answers (h : s.answers) :
    exec .deckClockLowRead s =
      .next { s with clockLatch := s.deckClock.extractLsb' 16 16, dataOut := s.deckClock.extractLsb' 0 16 } := by
  have highHalf : (s.deckClock >>> 16).setWidth 16 = s.deckClock.extractLsb' 16 16 := by
    ext i hi
    simp
  rw [← BitVec.setWidth_eq_extractLsb' (by omega), ← highHalf]
  exact congrArg _ (hostAccess_of_answers h .readClockLow)

/-! ## Refused host writes (R159, R160) -/

/-- A refused write leaves the summary and the pins, so they agree as before. -/
theorem refresh_refuse (h : s.consistent) (addr : Nat) : refresh (refuse addr s) = refuse addr s := by
  obtain ⟨-, -, -, summary, pins⟩ := h
  exact refresh_of_agrees (s := refuse addr s) summary pins

/-- The header below the heartbeat count is the part's own: identity, version, part state, done count and deck clock (9.2). -/
theorem writeWord_of_lt_heartbeat {addr : Nat} (h : addr < 0x0C) (value : Word) : writeWord addr value s = refuse addr s := by
  interval_cases addr <;> rfl

theorem exec_hostWrite_of_lt_heartbeat (answers : s.answers) (consistent : s.consistent) {addr : BitVec 14}
    (low : addr.toNat < 0x0C) (value : Word) :
    exec (.hostWrite addr value) s = .next (refuse (wordAddress addr) s) := by
  have below : wordAddress addr < 0x0C := by
    unfold wordAddress
    omega
  have served : serveAccess (.write (wordAddress addr) value) s = refuse (wordAddress addr) s := by
    rw [serveAccess, writeWord_of_lt_heartbeat below, refresh_refuse consistent]
  exact congrArg _ ((hostAccess_of_answers answers _).trans served)

end

/-! ## The host's side over a bridge reset (R176, R183) -/

/-! What an equality of `hostSide` says of a field. -/

section
variable {s : State} {side : HostSide} (h : s.hostSide = side)
include h

theorem clockLatch_of_hostSide : s.clockLatch = side.clockLatch := h ▸ rfl
theorem deckClock_of_hostSide : s.deckClock = side.deckClock := h ▸ rfl
theorem held_of_hostSide : s.held = side.held := h ▸ rfl

end

@[simp] theorem resetSlot_hostSide (slot : Nat) (s : State) : (resetSlot slot s).hostSide = s.hostSide := by
  unfold resetSlot
  dsimp only
  split <;> rfl

theorem foldl_resetSlot_hostSide (slots : List Nat) (s : State) :
    (slots.foldl (fun t slot => resetSlot slot t) s).hostSide = s.hostSide := by
  induction slots generalizing s with
  | nil => rfl
  | cons slot rest ih => rw [List.foldl_cons, ih, resetSlot_hostSide]

@[simp] theorem resetOrders_hostSide (s : State) : (resetOrders s).hostSide = s.hostSide := by
  rw [resetOrders, foldl_resetSlot_hostSide]
  rfl

@[simp] theorem runTransition_hostSide (f : Env → Deck → Work → Work) (s : State) :
    (runTransition f s).hostSide = s.hostSide :=
  absorb_hostSide _ _

/-- A bridge reset clears the three counts of the header and holds the accesses that follow; the deck clock, the clock latch and
the registers stay (R158, R183). -/
theorem startBridgeReset_hostSide (s : State) :
    (startBridgeReset s).hostSide =
      { s.hostSide with refusedWrites := 0, lastRefused := 0, staleTakes := 0, bridgeResetting := true } := by
  have kept : (runTransition unitsBridgeReset (resetOrders { s with starting := none })).hostSide = s.hostSide := by
    rw [runTransition_hostSide, resetOrders_hostSide]
    rfl
  unfold startBridgeReset
  dsimp only
  rw [refresh_hostSide, ← kept]
  generalize runTransition unitsBridgeReset (resetOrders { s with starting := none }) = moved
  rfl

/-- No write to CONTROL touches the deck clock or its latch (R158, R165). -/
theorem writeControl_clock (value : Word) (s : State) :
    (writeControl value s).clockLatch = s.clockLatch ∧ (writeControl value s).deckClock = s.deckClock := by
  unfold writeControl
  dsimp only
  split
  · exact ⟨rfl, rfl⟩
  split
  · have side := startBridgeReset_hostSide { s with interruptEnable := value.getLsbD 0 }
    exact ⟨clockLatch_of_hostSide side, deckClock_of_hostSide side⟩
  · have side := refresh_hostSide { s with interruptEnable := value.getLsbD 0 }
    exact ⟨clockLatch_of_hostSide side, deckClock_of_hostSide side⟩

/-! ## The end of the power-on clear (R168) -/

/-- The end of the power-on clear with no access waiting on nRDY. -/
theorem exec_powerOnClearEnd_of_no_held {s : State} (clearing : s.power = .clearing) (held : s.held = []) :
    exec .powerOnClearEnd s = .next { finishClear s with held := [] } := by
  have noneWait : (finishClear s).held = [] := by
    rw [finishClear, held_of_hostSide (refresh_hostSide _)]
    exact held
  change Host.Outcome.next (endPowerClear s) = _
  rw [endPowerClear, if_pos clearing, serveHeld, noneWait, List.foldl_nil]

/-! ## The statements -/

/-- Settles O19: IDENT is a fixed word; the identity words are what the end of the clear writes into the memory, and they stand
in the part's own end of the header. -/
theorem identReadsTheCodes : Obligations.IdentReadsTheCodes := by
  unfold Obligations.IdentReadsTheCodes
  have resetCodes := exchangeRead_identity_of_cleared (s := State.reset) rfl
  refine ⟨fun s => ?ident, fun _ _ _ => rfl, resetCodes.1, resetCodes.2, fun s clearing held => ?clear,
    fun s addr value answers consistent which => ?refused⟩
  case ident =>
    rw [registerRead_ident]
    decide
  case clear =>
    exact ⟨_, exec_powerOnClearEnd_of_no_held clearing held, exchangeRead_identity_of_cleared (refresh_ram _)⟩
  case refused =>
    obtain rfl | rfl := which <;> exact exec_hostWrite_of_lt_heartbeat answers consistent (by decide) value

/-- Settles O17: both words are formed from the clock and the latch, the read of the low word moves the latch alone, and a bridge
reset keeps the host's side but for the counts. -/
theorem deckClockReadsWhole : Obligations.DeckClockReadsWhole := by
  unfold Obligations.DeckClockReadsWhole
  refine ⟨fun s => ⟨exchangeRead_clockLow s, exchangeRead_clockHigh s⟩, rfl,
    fun s value => ⟨_, rfl, writeControl_clock value s⟩, fun s answers consistent => ⟨?read, fun value => ⟨?low, ?high⟩⟩⟩
  case read =>
    exact ⟨_, exec_deckClockLowRead_of_answers answers, rfl, (exchangeRead_clockLow _).symm, rfl, rfl,
      fun _ => exchangeRead_clockHigh _⟩
  case low => exact exec_hostWrite_of_lt_heartbeat answers consistent (by decide) value
  case high => exact exec_hostWrite_of_lt_heartbeat answers consistent (by decide) value

end Sys2Proof.Machine
end
